-- ==== Sys2Proof/Word.lean ====
section
/-! DEFINITION. The word types of the block, one name per width that the spec's data model uses. -/

namespace Sys2Proof

/-- One byte of device memory or of the audio FIFO (`10_state.md` R43, R45). -/
abbrev Byte := BitVec 8

/-- One command word on the command port (`30_encoding.md` R80). -/
abbrev CmdWord := BitVec 64

/-- The value operand of a command, and the value a read command hands back (R13, R80). -/
abbrev Imm := BitVec 48

/-- A device-memory address before masking (`20_memory.md` R65). -/
abbrev Addr := BitVec 24

/-- A Q24.10 fixed-point wave address or step (`10_state.md` R21, R22). -/
abbrev WaveQ := BitVec 34

/-- A Q14.10 fixed-point volume level or step (`10_state.md` R24, R25). -/
abbrev RampQ := BitVec 24

/-- The number of a channel, `0 .. 31` (`00_scope.md` R7). -/
abbrev ChanIdx := Fin 32

end Sys2Proof
end

