-- ==== Sys2Proof/Syntax.lean ====
section
/-! DEFINITION. The commands of `30_encoding.md` R83: one constructor per row of the opcode table, each with the
operands that row uses, at the width it uses them (R81). -/

namespace Sys2Proof

/-- One command. Operands have exactly the widths of R83, so that a command holds no ignored bit. -/
inductive Instr where
  -- channel registers, `42_channel_regs.md`
  | selCh (n : BitVec 5)
  | setWctrl (v : BitVec 8)
  | setWfreq (f : BitVec 16)
  | setWstart (a : WaveQ)
  | setWend (a : WaveQ)
  | setWaddr (a : WaveQ)
  | setRctrl (v : BitVec 8)
  | setRrate (r : BitVec 8)
  | setRstart (v : RampQ)
  | setRend (v : RampQ)
  | setRvol (v : RampQ)
  | setPan (p : BitVec 4)
  | getCh
  | getWctrl
  | getWfreq
  | getWstart
  | getWend
  | getWaddr
  | getRctrl
  | getRrate
  | getRstart
  | getRend
  | getRvol
  | getPan
  -- global register file, `45_global.md`
  | reset (w : BitVec 16)
  | getMode
  | setVoices (n : BitVec 6)
  | getVoices
  | getRate
  | getIrqst
  | ackVirq
  | memAddr (a : Addr)
  | getMemaddr
  | memPoke (v : Byte)
  | memPeek
  | tmrCfg (t : BitVec 1) (reload : BitVec 8) (raiseIrq masked run : Bool)
  | tmrAck (mask : BitVec 2)
  | getTmr (t : BitVec 1)
  -- DMA engine and audio FIFO, `41_dma.md`
  | dmaSetup (auto w16 : Bool) (total : BitVec 32)
  | dmaInterval (us : BitVec 32)
  | dmaAddr (a : Addr)
  | getDmaaddr
  | setDmactl (v : BitVec 8)
  | getDmactl
  | fifoPush (b : Byte)
  | fifoPop
  | getFifo
  -- event scheduler, `40_scheduler.md`
  | evAdd (e : BitVec 8) (delayUs : BitVec 32) (value : BitVec 16)
  | evRemove (e : BitVec 8)
  | getEv (e : BitVec 8)
  -- environment words, `30_encoding.md` R89
  | tick (inL inR : BitVec 24)
  | wait (us : BitVec 48)
deriving DecidableEq, Repr

end Sys2Proof
end

