-- ==== Sys2Proof/Decode.lean ====
section
/-! DEFINITION. The decoder and the encoder of `30_encoding.md` R80 to R83, and the columns of its table. -/

namespace Sys2Proof

/-- The four columns "op", "fmt", "dir" and "path" of R83 as data.
`n` to `env` are the formats of R82. -/
inductive Format where
  | n | i | a | ai | env
deriving DecidableEq, Repr

/-- The column "dir" of R83: a write hands nothing back, a read hands back a value. -/
inductive Direction where
  | write | read
deriving DecidableEq, Repr

/-- The latency class of `70_reset_and_hazards.md` R272; environment words have none. No rule depends on it. -/
inductive Path where
  | fast | slow | none
deriving DecidableEq, Repr

/-- The column "op" of R83. -/
def Instr.opcode : Instr → BitVec 8
  | .selCh _ => 0x01 | .setWctrl _ => 0x02 | .setWfreq _ => 0x03 | .setWstart _ => 0x04
  | .setWend _ => 0x05 | .setWaddr _ => 0x06 | .setRctrl _ => 0x07 | .setRrate _ => 0x08
  | .setRstart _ => 0x09 | .setRend _ => 0x0A | .setRvol _ => 0x0B | .setPan _ => 0x0C
  | .getCh => 0x21 | .getWctrl => 0x22 | .getWfreq => 0x23 | .getWstart => 0x24
  | .getWend => 0x25 | .getWaddr => 0x26 | .getRctrl => 0x27 | .getRrate => 0x28
  | .getRstart => 0x29 | .getRend => 0x2A | .getRvol => 0x2B | .getPan => 0x2C
  | .reset _ => 0x40 | .getMode => 0x41 | .setVoices _ => 0x42 | .getVoices => 0x43
  | .getRate => 0x44 | .getIrqst => 0x45 | .ackVirq => 0x46 | .memAddr _ => 0x47
  | .getMemaddr => 0x48 | .memPoke _ => 0x49 | .memPeek => 0x4A | .tmrCfg _ _ _ _ _ => 0x4B
  | .tmrAck _ => 0x4C | .getTmr _ => 0x4D
  | .dmaSetup _ _ _ => 0x60 | .dmaInterval _ => 0x61 | .dmaAddr _ => 0x62 | .getDmaaddr => 0x63
  | .setDmactl _ => 0x64 | .getDmactl => 0x65 | .fifoPush _ => 0x66 | .fifoPop => 0x67
  | .getFifo => 0x68
  | .evAdd _ _ _ => 0x80 | .evRemove _ => 0x81 | .getEv _ => 0x82
  | .tick _ _ => 0xA0 | .wait _ => 0xA1

/-- The column "fmt" of R83. -/
def Instr.format : Instr → Format
  | .selCh _ | .setWctrl _ | .setWfreq _ | .setWstart _ | .setWend _ | .setWaddr _ => .i
  | .setRctrl _ | .setRrate _ | .setRstart _ | .setRend _ | .setRvol _ | .setPan _ => .i
  | .getCh | .getWctrl | .getWfreq | .getWstart | .getWend | .getWaddr => .n
  | .getRctrl | .getRrate | .getRstart | .getRend | .getRvol | .getPan => .n
  | .reset _ | .setVoices _ | .memAddr _ | .memPoke _ => .i
  | .getMode | .getVoices | .getRate | .getIrqst | .ackVirq | .getMemaddr | .memPeek => .n
  | .tmrCfg _ _ _ _ _ => .ai
  | .tmrAck _ | .getTmr _ => .a
  | .dmaSetup _ _ _ => .ai
  | .dmaInterval _ | .dmaAddr _ | .setDmactl _ | .fifoPush _ => .i
  | .getDmaaddr | .getDmactl | .fifoPop | .getFifo => .n
  | .evAdd _ _ _ => .ai
  | .evRemove _ | .getEv _ => .a
  | .tick _ _ | .wait _ => .env

/-- The column "dir" of R83. -/
def Instr.direction : Instr → Direction
  | .selCh _ | .setWctrl _ | .setWfreq _ | .setWstart _ | .setWend _ | .setWaddr _ => .write
  | .setRctrl _ | .setRrate _ | .setRstart _ | .setRend _ | .setRvol _ | .setPan _ => .write
  | .getCh | .getWctrl | .getWfreq | .getWstart | .getWend | .getWaddr => .read
  | .getRctrl | .getRrate | .getRstart | .getRend | .getRvol | .getPan => .read
  | .reset _ | .setVoices _ | .memAddr _ | .memPoke _ => .write
  | .getMode | .getVoices | .getRate | .getIrqst | .ackVirq | .getMemaddr | .memPeek => .read
  | .tmrCfg _ _ _ _ _ | .tmrAck _ => .write
  | .getTmr _ => .read
  | .dmaSetup _ _ _ | .dmaInterval _ | .dmaAddr _ | .setDmactl _ | .fifoPush _ => .write
  | .getDmaaddr | .getDmactl | .fifoPop | .getFifo => .read
  | .evAdd _ _ _ | .evRemove _ => .write
  | .getEv _ => .read
  | .tick _ _ => .read
  | .wait _ => .write

/-- The column "path" of R83, by the list of R272. -/
def Instr.path : Instr → Path
  | .reset _ | .setVoices _ | .ackVirq | .tmrCfg _ _ _ _ _ | .setDmactl _ | .getDmactl => .slow
  | .evAdd _ _ _ | .evRemove _ => .slow
  | .tick _ _ | .wait _ => .none
  | .selCh _ | .setWctrl _ | .setWfreq _ | .setWstart _ | .setWend _ | .setWaddr _ => .fast
  | .setRctrl _ | .setRrate _ | .setRstart _ | .setRend _ | .setRvol _ | .setPan _ => .fast
  | .getCh | .getWctrl | .getWfreq | .getWstart | .getWend | .getWaddr => .fast
  | .getRctrl | .getRrate | .getRstart | .getRend | .getRvol | .getPan => .fast
  | .getMode | .getVoices | .getRate | .getIrqst | .memAddr _ | .getMemaddr => .fast
  | .memPoke _ | .memPeek | .tmrAck _ | .getTmr _ => .fast
  | .dmaSetup _ _ _ | .dmaInterval _ | .dmaAddr _ | .getDmaaddr => .fast
  | .fifoPush _ | .fifoPop | .getFifo | .getEv _ => .fast

/-- `op`, bits 63:56 of a command word (R80). -/
def opField (w : CmdWord) : BitVec 8 := w.extractLsb' 56 8

/-- `arg`, bits 55:48 of a command word (R80). -/
def argField (w : CmdWord) : BitVec 8 := w.extractLsb' 48 8

/-- `imm`, bits 47:0 of a command word (R80). -/
def immField (w : CmdWord) : Imm := w.extractLsb' 0 48

/-- The command that `op` selects, with its operands cut from `arg` and `imm` (R81, R83); `none` for an opcode that
is not in the table (R84). The decoder takes no state (R86). -/
def decodeFields (op arg : BitVec 8) (imm : Imm) : Option Instr :=
  match op with
  | 0x01#8 => some (.selCh (imm.extractLsb' 0 5))
  | 0x02#8 => some (.setWctrl (imm.extractLsb' 0 8))
  | 0x03#8 => some (.setWfreq (imm.extractLsb' 0 16))
  | 0x04#8 => some (.setWstart (imm.extractLsb' 0 34))
  | 0x05#8 => some (.setWend (imm.extractLsb' 0 34))
  | 0x06#8 => some (.setWaddr (imm.extractLsb' 0 34))
  | 0x07#8 => some (.setRctrl (imm.extractLsb' 0 8))
  | 0x08#8 => some (.setRrate (imm.extractLsb' 0 8))
  | 0x09#8 => some (.setRstart (imm.extractLsb' 0 24))
  | 0x0A#8 => some (.setRend (imm.extractLsb' 0 24))
  | 0x0B#8 => some (.setRvol (imm.extractLsb' 0 24))
  | 0x0C#8 => some (.setPan (imm.extractLsb' 0 4))
  | 0x21#8 => some .getCh
  | 0x22#8 => some .getWctrl
  | 0x23#8 => some .getWfreq
  | 0x24#8 => some .getWstart
  | 0x25#8 => some .getWend
  | 0x26#8 => some .getWaddr
  | 0x27#8 => some .getRctrl
  | 0x28#8 => some .getRrate
  | 0x29#8 => some .getRstart
  | 0x2A#8 => some .getRend
  | 0x2B#8 => some .getRvol
  | 0x2C#8 => some .getPan
  | 0x40#8 => some (.reset (imm.extractLsb' 0 16))
  | 0x41#8 => some .getMode
  | 0x42#8 => some (.setVoices (imm.extractLsb' 0 6))
  | 0x43#8 => some .getVoices
  | 0x44#8 => some .getRate
  | 0x45#8 => some .getIrqst
  | 0x46#8 => some .ackVirq
  | 0x47#8 => some (.memAddr (imm.extractLsb' 0 24))
  | 0x48#8 => some .getMemaddr
  | 0x49#8 => some (.memPoke (imm.extractLsb' 0 8))
  | 0x4A#8 => some .memPeek
  | 0x4B#8 => some (.tmrCfg (arg.extractLsb' 0 1) (imm.extractLsb' 0 8)
      (imm.getLsbD 8) (imm.getLsbD 9) (imm.getLsbD 10))
  | 0x4C#8 => some (.tmrAck (arg.extractLsb' 0 2))
  | 0x4D#8 => some (.getTmr (arg.extractLsb' 0 1))
  | 0x60#8 => some (.dmaSetup (arg.getLsbD 0) (arg.getLsbD 1) (imm.extractLsb' 0 32))
  | 0x61#8 => some (.dmaInterval (imm.extractLsb' 0 32))
  | 0x62#8 => some (.dmaAddr (imm.extractLsb' 0 24))
  | 0x63#8 => some .getDmaaddr
  | 0x64#8 => some (.setDmactl (imm.extractLsb' 0 8))
  | 0x65#8 => some .getDmactl
  | 0x66#8 => some (.fifoPush (imm.extractLsb' 0 8))
  | 0x67#8 => some .fifoPop
  | 0x68#8 => some .getFifo
  | 0x80#8 => some (.evAdd arg (imm.extractLsb' 0 32) (imm.extractLsb' 32 16))
  | 0x81#8 => some (.evRemove arg)
  | 0x82#8 => some (.getEv arg)
  | 0xA0#8 => some (.tick (imm.extractLsb' 0 24) (imm.extractLsb' 24 24))
  | 0xA1#8 => some (.wait imm)
  | _ => none

/-- The decoder: total on every word (R80, R83, R84). -/
def decode (w : CmdWord) : Option Instr :=
  decodeFields (opField w) (argField w) (immField w)

/-- `arg` of the encoding, its unused bits 0 (R81, R83). -/
def Instr.argBits : Instr → BitVec 8
  | .tmrCfg t _ _ _ _ => t.setWidth 8
  | .tmrAck m => m.setWidth 8
  | .getTmr t => t.setWidth 8
  | .dmaSetup auto w16 _ => (BitVec.ofBool w16 ++ BitVec.ofBool auto).setWidth 8
  | .evAdd e _ _ => e
  | .evRemove e => e
  | .getEv e => e
  | .selCh _ | .setWctrl _ | .setWfreq _ | .setWstart _ | .setWend _ | .setWaddr _ => 0
  | .setRctrl _ | .setRrate _ | .setRstart _ | .setRend _ | .setRvol _ | .setPan _ => 0
  | .getCh | .getWctrl | .getWfreq | .getWstart | .getWend | .getWaddr => 0
  | .getRctrl | .getRrate | .getRstart | .getRend | .getRvol | .getPan => 0
  | .reset _ | .getMode | .setVoices _ | .getVoices | .getRate | .getIrqst | .ackVirq => 0
  | .memAddr _ | .getMemaddr | .memPoke _ | .memPeek => 0
  | .dmaInterval _ | .dmaAddr _ | .getDmaaddr | .setDmactl _ | .getDmactl => 0
  | .fifoPush _ | .fifoPop | .getFifo => 0
  | .tick _ _ | .wait _ => 0

/-- `imm` of the encoding, its unused bits 0 (R81, R83). -/
def Instr.immBits : Instr → Imm
  | .selCh n => n.setWidth 48
  | .setWctrl v => v.setWidth 48
  | .setWfreq f => f.setWidth 48
  | .setWstart a => a.setWidth 48
  | .setWend a => a.setWidth 48
  | .setWaddr a => a.setWidth 48
  | .setRctrl v => v.setWidth 48
  | .setRrate r => r.setWidth 48
  | .setRstart v => v.setWidth 48
  | .setRend v => v.setWidth 48
  | .setRvol v => v.setWidth 48
  | .setPan p => p.setWidth 48
  | .reset w => w.setWidth 48
  | .setVoices n => n.setWidth 48
  | .memAddr a => a.setWidth 48
  | .memPoke v => v.setWidth 48
  | .tmrCfg _ reload irq masked run =>
      (BitVec.ofBool run ++ BitVec.ofBool masked ++ BitVec.ofBool irq ++ reload).setWidth 48
  | .dmaSetup _ _ total => total.setWidth 48
  | .dmaInterval us => us.setWidth 48
  | .dmaAddr a => a.setWidth 48
  | .setDmactl v => v.setWidth 48
  | .fifoPush b => b.setWidth 48
  | .evAdd _ delayUs value => value ++ delayUs
  | .tick inL inR => inR ++ inL
  | .wait us => us
  | .getCh | .getWctrl | .getWfreq | .getWstart | .getWend | .getWaddr => 0
  | .getRctrl | .getRrate | .getRstart | .getRend | .getRvol | .getPan => 0
  | .getMode | .getVoices | .getRate | .getIrqst | .ackVirq | .getMemaddr | .memPeek => 0
  | .tmrAck _ | .getTmr _ | .getDmaaddr | .getDmactl | .fifoPop | .getFifo => 0
  | .evRemove _ | .getEv _ => 0

/-- The encoder: the word of a command, every bit it does not use 0 (R80, R83). -/
def encode (i : Instr) : CmdWord := i.opcode ++ i.argBits ++ i.immBits

/-- The low `k` bits of `imm`. -/
def lowImm (k : Nat) : Imm := BitVec.ofNat 48 (2 ^ k - 1)

/-- The bits of `arg` that a command uses (the column "operands" of R83). -/
def Instr.argUsed : Instr → BitVec 8
  | .tmrCfg _ _ _ _ _ => 0x01
  | .tmrAck _ => 0x03
  | .getTmr _ => 0x01
  | .dmaSetup _ _ _ => 0x03
  | .evAdd _ _ _ | .evRemove _ | .getEv _ => 0xFF
  | .selCh _ | .setWctrl _ | .setWfreq _ | .setWstart _ | .setWend _ | .setWaddr _ => 0
  | .setRctrl _ | .setRrate _ | .setRstart _ | .setRend _ | .setRvol _ | .setPan _ => 0
  | .getCh | .getWctrl | .getWfreq | .getWstart | .getWend | .getWaddr => 0
  | .getRctrl | .getRrate | .getRstart | .getRend | .getRvol | .getPan => 0
  | .reset _ | .getMode | .setVoices _ | .getVoices | .getRate | .getIrqst | .ackVirq => 0
  | .memAddr _ | .getMemaddr | .memPoke _ | .memPeek => 0
  | .dmaInterval _ | .dmaAddr _ | .getDmaaddr | .setDmactl _ | .getDmactl => 0
  | .fifoPush _ | .fifoPop | .getFifo => 0
  | .tick _ _ | .wait _ => 0

/-- The bits of `imm` that a command uses (the column "operands" of R83). -/
def Instr.immUsed : Instr → Imm
  | .selCh _ => lowImm 5
  | .setWctrl _ | .setRctrl _ | .setRrate _ | .memPoke _ | .setDmactl _ | .fifoPush _ => lowImm 8
  | .setWfreq _ | .reset _ => lowImm 16
  | .setWstart _ | .setWend _ | .setWaddr _ => lowImm 34
  | .setRstart _ | .setRend _ | .setRvol _ | .memAddr _ | .dmaAddr _ => lowImm 24
  | .setPan _ => lowImm 4
  | .setVoices _ => lowImm 6
  | .tmrCfg _ _ _ _ _ => lowImm 11
  | .dmaSetup _ _ _ | .dmaInterval _ => lowImm 32
  | .evAdd _ _ _ | .tick _ _ | .wait _ => lowImm 48
  | .getCh | .getWctrl | .getWfreq | .getWstart | .getWend | .getWaddr => 0
  | .getRctrl | .getRrate | .getRstart | .getRend | .getRvol | .getPan => 0
  | .getMode | .getVoices | .getRate | .getIrqst | .ackVirq | .getMemaddr | .memPeek => 0
  | .tmrAck _ | .getTmr _ | .getDmaaddr | .getDmactl | .fifoPop | .getFifo => 0
  | .evRemove _ | .getEv _ => 0

/-- The bits of a word that a command uses: its opcode and its operands (R81, R83). -/
def Instr.usedBits (i : Instr) : CmdWord := 0xFF#8 ++ i.argUsed ++ i.immUsed

/-- A row's word as the opcode table numbers its bits. The block has one word per command, so that bit 0 of the
word is bit 0 of the number, and the bits from `nbits` on are 0. -/
def tableWord (nbits w : Nat) : CmdWord := BitVec.ofNat 64 (w % 2 ^ nbits)

/-- The instruction the decoder reads from an opcode-table word. -/
def decodeTableWord (nbits w : Nat) : Option Instr := decode (tableWord nbits w)

end Sys2Proof
end

