-- ==== Sys2Proof/Config.lean ====
section
/-! DEFINITION. The parameters of `00_scope.md` R8 and R9, and the free values the spec leaves to the environment. -/

namespace Sys2Proof

/-- Which function a configuration function of R8 is (log 4).
`standard` is the spec's default formula (R147, R152, R196).
`free k` is a function about which nothing is known; `k` tells one such function from another. -/
inductive Curve where
  | standard
  | free (k : Nat)
deriving DecidableEq, Repr

/-- What a byte that nothing has written since boot reads as (`10_state.md` R48, U2; logs 5 and 6).
`byte b` is the fixed byte `b` everywhere.
`free k` is an unknown constant per address, fixed at boot. -/
inductive Fill where
  | byte (b : Byte)
  | free (k : Nat)
deriving DecidableEq, Repr

/-- A call that a peripheral outside the block makes on the scheduler
(`00_scope.md` R3 (f), `40_scheduler.md` R101, R109). -/
inductive ClientCall where
  | add (e : Nat) (delayUs value : BitVec 32)
  | remove (e : Nat)
deriving DecidableEq, Repr

/-- What one run of an external handler does, as far as the block can see (`40_scheduler.md` R109):
the scheduler calls it makes, in order, and the value it returns. -/
structure ExtAnswer where
  calls : List ClientCall
  ret : BitVec 32
deriving DecidableEq, Repr, Inhabited

/-- The parameters of `00_scope.md` R8, one field each. The configuration is data of the state, never
written by a step (R9; log 3). -/
structure Config where
  /-- `MEM_ADDR_BITS`. -/
  memAddrBits : Nat
  /-- `BANK_BITS`. -/
  bankBits : Nat
  /-- `MAX_RAMP`. -/
  maxRamp : Nat
  /-- `RATE_TABLE[0..31]`. -/
  rateTable : List Nat
  /-- `FIXED_RATE_FLAG`. -/
  fixedRateFlag : Bool
  /-- `FIXED_RATE_HZ`. -/
  fixedRateHz : Nat
  /-- The configuration function `WaveStep`. -/
  waveStepCurve : Curve
  /-- The configuration function `RampStep`. -/
  rampStepCurve : Curve
  /-- The configuration functions `AttenL` and `AttenR`. -/
  attenCurve : Curve
  /-- `PAN_CENTRE`. -/
  panCentre : BitVec 4
  /-- `VOICES_DEFAULT`. -/
  voicesDefault : Nat
  /-- `SCHED_CAPACITY`. -/
  schedCapacity : Nat
  /-- `EXT_EVENTS`. -/
  extEvents : Nat
  /-- `TIMER_UNIT_US[0]`. -/
  timerUnit0 : Nat
  /-- `TIMER_UNIT_US[1]`. -/
  timerUnit1 : Nat
  /-- `FIFO_CAPACITY`. -/
  fifoCapacity : Nat
  /-- `FIFO_THRESHOLD`. -/
  fifoThreshold : Nat
  /-- `READ_SENTINEL`. -/
  readSentinel : Imm
  /-- `DMA_INTERVAL_OVERRIDE_US`. -/
  dmaIntervalOverride : BitVec 32
  /-- Boot contents of device memory (U2). -/
  memFill : Fill
  /-- Boot contents of `fifo.buf` (U2). -/
  fifoFill : Fill
deriving DecidableEq, Repr

/-- The constraints that R7 and R8 put on the parameters.
That a timer delay fits its 32-bit field is DEDUCED from the width in `10_state.md` R39 (log 18). -/
abbrev Config.WF (c : Config) : Prop :=
  (2 ≤ c.bankBits ∧ c.bankBits ≤ c.memAddrBits ∧ c.memAddrBits ≤ 24) ∧
  (1 ≤ c.maxRamp ∧ c.maxRamp ≤ 2 ^ 24) ∧
  (c.rateTable.length = 32 ∧ (∀ r ∈ c.rateTable, 0 < r) ∧ 0 < c.fixedRateHz) ∧
  (14 ≤ c.voicesDefault ∧ c.voicesDefault ≤ 32) ∧
  1 ≤ c.schedCapacity ∧
  (0 < c.timerUnit0 ∧ 256 * c.timerUnit0 < 2 ^ 32) ∧
  (0 < c.timerUnit1 ∧ 256 * c.timerUnit1 < 2 ^ 32) ∧
  (c.fifoCapacity = 2 ^ Nat.log2 c.fifoCapacity ∧
    1 ≤ c.fifoThreshold ∧ c.fifoThreshold < c.fifoCapacity)

/-- Free configuration function `WaveStep` (U3). -/
opaque Config.freeWaveStep : Nat → BitVec 16 → Nat → Nat

/-- Free configuration function `RampStep` (U3). -/
opaque Config.freeRampStep : Nat → BitVec 8 → Nat → Nat

/-- Free configuration function `AttenL` away from pan 15 (U4). -/
opaque Config.freeAttenL : Nat → BitVec 4 → RampQ → BitVec 18

/-- Free configuration function `AttenR` away from pan 0 (U4). -/
opaque Config.freeAttenR : Nat → BitVec 4 → RampQ → BitVec 18

/-- Unknown boot byte at an address (U2). -/
opaque Config.freeBootByte : Nat → Nat → Byte

/-- The host's byte at a free draw of a DMA cycle (U6, `41_dma.md` R125). -/
opaque Config.freeHostByte : Nat → Byte

/-- The external handler's answer at a free draw (U6, `40_scheduler.md` R109). -/
opaque Config.freeExtAnswer : Nat → ExtAnswer

end Sys2Proof
end

