-- ==== Sys2Proof/Machine/Operands.lean ====
section
/-! DEFINITION. The pure functions on operands and fields: control-bit positions, the configuration functions, the
bank remap, the sample formats, interpolation and the clamps. None of them reads the state. -/

namespace Sys2Proof.Machine

/-! ### Control-byte bits (`10_state.md` R23, R26, R31, R37) -/

/-- `STOPPED` of a wave or ramp control byte. -/
def ctlStopped (v : BitVec 8) : Bool := v.getLsbD 0
/-- `LOOP`. -/
def ctlLoop (v : BitVec 8) : Bool := v.getLsbD 1
/-- `BIDIR`. -/
def ctlBidir (v : BitVec 8) : Bool := v.getLsbD 2
/-- `BIT16` of `wave_control`. -/
def ctlBit16 (v : BitVec 8) : Bool := v.getLsbD 3
/-- `ROLLOVER` of `ramp_control`, the same position as `BIT16` (R26). -/
def ctlRollover (v : BitVec 8) : Bool := v.getLsbD 3
/-- `DEC`. -/
def ctlDec (v : BitVec 8) : Bool := v.getLsbD 4
/-- `IRQEN`. -/
def ctlIrqEn (v : BitVec 8) : Bool := v.getLsbD 5
/-- The control byte with `STOPPED` set. -/
def ctlStop (v : BitVec 8) : BitVec 8 := v ||| 0x01#8
/-- The control byte with `DEC` inverted. -/
def ctlFlipDec (v : BitVec 8) : BitVec 8 := v ^^^ 0x10#8

/-- `RUN` of the mode byte. -/
def modeRun (m : BitVec 8) : Bool := m.getLsbD 0
/-- `IRQ_MASTER` of the mode byte. -/
def modeIrqMaster (m : BitVec 8) : Bool := m.getLsbD 2
/-- The mode byte with bits 2:1 zero (R210). -/
def modeClear21 (m : BitVec 8) : BitVec 8 := m &&& 0xF9#8

/-- `ENABLE` of a DMA control byte. -/
def dmaEnable (v : BitVec 8) : Bool := v.getLsbD 0
/-- `DIR` of the DMA control value: 0 is host to device memory. -/
def dmaDir (v : BitVec 9) : Bool := v.getLsbD 1
/-- `IRQ_EN` of the DMA control value. -/
def dmaIrqEn (v : BitVec 9) : Bool := v.getLsbD 2
/-- `TC`, bit 8 of the DMA control value. -/
def dmaTc (v : BitVec 9) : Bool := v.getLsbD 8
/-- The control value with byte `b` in bits 7:0 and `TC` kept (`41_dma.md` R129). -/
def dmaSetByte (v : BitVec 9) (b : BitVec 8) : BitVec 9 := v.extractLsb' 8 1 ++ b
/-- The control value with `TC` cleared (R130). -/
def dmaClearTc (v : BitVec 9) : BitVec 9 := v &&& 0x0FF#9
/-- The control value at terminal count: `TC` set, `ENABLE` cleared (R122, R124). -/
def dmaAtTerminalCount (v : BitVec 9) : BitVec 9 := (v ||| 0x100#9) &&& 0x1FE#9

/-! ### Configuration (`00_scope.md` R8) -/

/-- The byte at index `a` of a storage that nothing has written since boot (R48, U2). -/
def fillByte : Fill → Nat → Byte
  | .byte b, _ => b
  | .free k, a => Config.freeBootByte k a

/-- `RATE_TABLE[n - 1]` (R213). -/
def rateOf (c : Config) (n : Nat) : Nat := c.rateTable.getD (n - 1) 0

/-- `TickRate(n)`, audio ticks per second (`42_channel_regs.md` R147). -/
def tickRate (c : Config) (n : Nat) : Nat := if c.fixedRateFlag then c.fixedRateHz else rateOf c n

/-- `WaveStep(f, n)` truncated to 34 bits (R145, R147, R213). -/
def waveStep (c : Config) (f : BitVec 16) (n : Nat) : WaveQ :=
  match c.waveStepCurve with
  | .standard => BitVec.ofNat 34 (f.toNat * rateOf c n / tickRate c n)
  | .free k => BitVec.ofNat 34 (Config.freeWaveStep k f n)

/-- `RampBase(r)` (R152): bits 5:0 in whole volume units, divided by 1, 8, 64 or 512. -/
def rampBase (r : BitVec 8) : Nat := (r &&& 0x3F#8).toNat * 1024 / 8 ^ (r >>> 6).toNat

/-- `RampStep(r, n)` truncated to 24 bits (R152, R157, R213). -/
def rampStep (c : Config) (r : BitVec 8) (n : Nat) : RampQ :=
  match c.rampStepCurve with
  | .standard => BitVec.ofNat 24 (rampBase r * rateOf c n / tickRate c n)
  | .free k => BitVec.ofNat 24 (Config.freeRampStep k r n)

/-- `AttenL(p, v)` (R8, `44_fetch_mix.md` R196); 0 at pan 15 for every configuration. -/
def attenLeft (c : Config) (p : BitVec 4) (v : RampQ) : BitVec 18 :=
  match c.attenCurve with
  | .standard => BitVec.ofNat 18 ((v >>> 10).toNat * (15 - p.toNat))
  | .free k => if p = 15#4 then 0 else Config.freeAttenL k p v

/-- `AttenR(p, v)` (R8, R196); 0 at pan 0 for every configuration. -/
def attenRight (c : Config) (p : BitVec 4) (v : RampQ) : BitVec 18 :=
  match c.attenCurve with
  | .standard => BitVec.ofNat 18 ((v >>> 10).toNat * p.toNat)
  | .free k => if p = 0#4 then 0 else Config.freeAttenR k p v

/-- `TIMER_UNIT_US[t]` (`45_global.md` R225). -/
def timerUnit (c : Config) (t : BitVec 1) : Nat := if t = 0#1 then c.timerUnit0 else c.timerUnit1

/-- The delay of a timer, `(256 - reload) * TIMER_UNIT_US[t]`, in its 32-bit field (R225, R39). -/
def timerDelay (c : Config) (t : BitVec 1) (reload : BitVec 8) : BitVec 32 :=
  BitVec.ofNat 32 ((256 - reload.toNat) * timerUnit c t)

/-- The voice count clamped to `[14, 32]` (R213). -/
def clampVoices (n : Nat) : Nat := max 14 (min n 32)

/-- The configuration of the column "value in vectors" of R8, with the rate table of U1. The column gives no
`FIXED_RATE_HZ`: 44100 here is the model's choice (DESIGN CHOICE, log 3); nothing reads it while the flag is 0. -/
def vectorConfig : Config where
  memAddrBits := 20
  bankBits := 18
  maxRamp := 2 ^ 24
  rateTable :=
    [617400, 308700, 205800, 154350, 123480, 102900, 88200, 77175,
      68600, 61740, 56127, 51450, 47492, 44100, 41160, 38587,
      36317, 34300, 32494, 30870, 29400, 28063, 26843, 25725,
      24696, 23746, 22866, 22050, 21289, 20580, 19916, 19293]
  fixedRateFlag := false
  fixedRateHz := 44100
  waveStepCurve := .standard
  rampStepCurve := .standard
  attenCurve := .standard
  panCentre := 7
  voicesDefault := 14
  schedCapacity := 8
  extEvents := 4
  timerUnit0 := 80
  timerUnit1 := 320
  fifoCapacity := 16
  fifoThreshold := 4
  readSentinel := 0
  dmaIntervalOverride := 0
  memFill := .byte 0
  fifoFill := .byte 0

/-! ### Addresses and samples -/

/-- `a AND MEM_MASK`: the index of the byte that a 24-bit address reaches (`20_memory.md` R65). -/
def maskAddr (c : Config) (a : Addr) : Nat := a.toNat % 2 ^ c.memAddrBits

/-- `Remap16(a)`: the bank-select bits kept, the low `BANK_BITS - 1` bits doubled (R66). -/
def remap16 (c : Config) (a : Addr) : Addr :=
  let bankSel : Addr := ~~~ BitVec.ofNat 24 (2 ^ c.bankBits - 1)
  let halfMask : Addr := BitVec.ofNat 24 (2 ^ (c.bankBits - 1) - 1)
  (a &&& bankSel) ||| ((a &&& halfMask) <<< 1)

/-- The integer part of a Q24.10 value (R10, R21). -/
def waveInt (v : WaveQ) : Addr := v.extractLsb' 10 24

/-- The fraction of a Q24.10 value, `0 .. 1023` (R10, R21). -/
def waveFrac (v : WaveQ) : Nat := (v.extractLsb' 0 10).toNat

/-- The cache tag of a wave address: its integer part divided by 16 (R28, R194). -/
def cacheTagOf (v : WaveQ) : BitVec 20 := v.extractLsb' 14 20

/-- An 8-bit sample, two's complement scaled by 256 (`44_fetch_mix.md` R191). -/
def sample8 (b : Byte) : Int := b.toInt * 256

/-- A 16-bit sample from its high and low byte, two's complement (R61, R192). -/
def sample16 (hi lo : Byte) : Int := (hi ++ lo).toInt

/-- `Interp(s0, s1, f)` (R193); `/` on integers rounds toward minus infinity for a positive divisor. -/
def interp (s0 s1 : Int) (f : Nat) : Int := s0 + (s1 - s0) * f / 1024

/-- One voice's addend to an accumulator (R197). -/
def scaleSample (s : Int) (atten : BitVec 18) : Int := s * atten.toNat / 2 ^ 18

/-- `Clamp16(x)` as the 16 bits that are output (R202, R203). -/
def clamp16 (x : Int) : BitVec 16 := BitVec.ofInt 16 (max (-32768) (min x 32767))

/-- `Clamp(x)` of a volume level to `0 .. MAX_RAMP - 1` (`43_wave_ramp.md` R177, R163). -/
def clampRamp (c : Config) (x : Int) : RampQ :=
  BitVec.ofNat 24 (max 0 (min x (c.maxRamp - 1))).toNat

end Sys2Proof.Machine
end

