-- ==== Sys2Proof/Machine/State.lean ====
section
/-! DEFINITION. The state of the block (`10_state.md` R20 to R45), the model's own fields beside it, the reasons a
step can stop, and the state after boot (R48). -/

namespace Sys2Proof.Machine

/-- One voice (R21 to R28). -/
structure Channel where
  waveStart : WaveQ
  waveEnd : WaveQ
  waveAddr : WaveQ
  waveFreq : BitVec 16
  waveIncrement : WaveQ
  waveControl : BitVec 8
  rampStart : RampQ
  rampEnd : RampQ
  rampVol : RampQ
  rampRate : BitVec 8
  rampIncrement : RampQ
  rampControl : BitVec 8
  panPosition : BitVec 4
  attenL : BitVec 18
  attenR : BitVec 18
  cacheValid : Bool
  cacheTag : BitVec 20
deriving DecidableEq, Repr

/-- The bytes of one DMA unit, 1 or 2 (R38, R40). -/
inductive UnitWidth where
  | one
  | two
deriving DecidableEq, Repr

/-- The global register file (R30 to R38). -/
structure Globals where
  selChannel : BitVec 5
  mode : BitVec 8
  activeVoiceCount : BitVec 6
  baseRate : Nat
  waveIrq : BitVec 32
  rampIrq : BitVec 32
  timerIrq : BitVec 2
  irqChan : BitVec 5
  irqLine : Bool
  memAddr : Addr
  dmaControl : BitVec 9
  dmaAddr : Addr
  dmaCfgTotal : BitVec 32
  dmaCfgUnit : UnitWidth
  dmaCfgAuto : Bool
  dmaCfgInterval : BitVec 32
deriving DecidableEq, Repr

/-- One hardware timer (R39). -/
structure Timer where
  delay : BitVec 32
  reload : BitVec 8
  reached : Bool
  raiseIrq : Bool
  masked : Bool
  running : Bool
deriving DecidableEq, Repr

/-- The state of the underlying DMA transport (R40). -/
inductive Xfer where
  | idle
  | inflight
deriving DecidableEq, Repr

/-- The DMA engine (R40). -/
structure Dma where
  remaining : BitVec 32
  total : BitVec 32
  bytesPerUnit : UnitWidth
  intervalUs : BitVec 32
  running : Bool
  autoInit : Bool
  xfer : Xfer
deriving DecidableEq, Repr

/-- An entry of the scheduler table (R41). -/
structure Alarm where
  id : Nat
  ev : Nat
  due : Nat
  expired : Bool
deriving DecidableEq, Repr

/-- The mutable part of a scheduler event (R42). -/
structure EventSlot where
  pending : Option Nat
  value : BitVec 32
deriving DecidableEq, Repr

/-- A byte store with addresses as numbers: the cells that differ from the boot contents, addresses strictly
rising (log 5). Device memory and the FIFO's buffer are both held so. -/
abbrev Memory := List Host.Cell

/-- Whether the audio FIFO has started (R43). -/
inductive FifoState where
  | stopped
  | running
deriving DecidableEq, Repr

/-- The audio FIFO (R43). -/
structure Fifo where
  buf : Memory
  writeIndex : Nat
  readIndex : Nat
  count : Nat
  state : FifoState
deriving DecidableEq, Repr

/-- The diagnostic lines of `60_exceptions.md` R254, one per `log` of a rule. -/
inductive LogLine where
  /-- `log("scheduler table full")` (R102). -/
  | schedulerTableFull
  /-- `log("DMA already running")` (R121). -/
  | dmaAlreadyRunning
  /-- `log("fifo full")` (R133). -/
  | fifoFull
  /-- An undefined command was presented (R84). -/
  | undefinedCommand
deriving DecidableEq, Repr

/-- An output event of a rule (`emit` of R13), or a diagnostic line. -/
inductive Emission where
  /-- One stereo sample pair (R200). -/
  | audioOut (l r : BitVec 16)
  /-- A DMA cycle from the host to device memory (R125). -/
  | dmaIn (addr : Addr) (bytes : List Byte)
  /-- A DMA cycle from device memory to the host (R125). -/
  | dmaOut (addr : Addr) (bytes : List Byte)
  /-- A fire of an external event with its intended time (R109). -/
  | extFire (e : Nat) (value : BitVec 32) (due : Nat)
  | log (line : LogLine)
deriving DecidableEq, Repr

/-- What the outside presents: the next word of a stream, or a step of another agent (R5, R47, R76, R89).
One step of the model serves one stimulus. -/
inductive Stimulus where
  /-- A word of a script stream, in which `TICK` and `WAIT` stand for steps of other agents (R89). -/
  | word (w : CmdWord)
  /-- A word on the hardware command port, where `TICK` and `WAIT` are undefined (R89). -/
  | portWord (w : CmdWord)
  /-- One audio tick of the audio-synthesis context (R200). -/
  | audioTick (inL inR : BitVec 24)
  /-- `TimePasses(dt)` (R106). -/
  | timePasses (dt : Nat)
  /-- `AlarmExpire` of the alarm with this id (R107). -/
  | alarmExpire (id : Nat)
  /-- `AlarmDispatch()` (R108). -/
  | alarmDispatch
  /-- A call of a peripheral on the scheduler client port (R3 (f), R101). -/
  | clientCall (call : ClientCall)
  /-- What is left of a `WAIT` whose external handlers kept arming alarms (log 9). -/
  | waitUntil (target : Nat)
deriving DecidableEq, Repr

/-- The environment's answers still to be asked for (R47; the model's own, log 7). -/
structure Env where
  /-- The next answers to `Draw(u8)` of a DMA cycle. -/
  hostBytes : List Byte
  /-- The next answers of external handlers. -/
  extAnswers : List ExtAnswer
  /-- How many free values have been drawn. -/
  draws : Nat
deriving DecidableEq, Repr

/-- The state of the block, and the model's own fields `cfg`, `env`, `inbox`, `result`, `emitted`. -/
structure State where
  /-- The configuration; no step writes it (R9, log 3). -/
  cfg : Config
  chans : Vector Channel 32
  g : Globals
  tmr0 : Timer
  tmr1 : Timer
  dma : Dma
  /-- The microsecond clock (R41). -/
  now : Nat
  /-- The scheduler table in rising order of ids (R41). -/
  alarms : List Alarm
  nextAlarmId : Nat
  /-- `ev[e]`, by event id (R42, R101). -/
  events : List EventSlot
  fifo : Fifo
  /-- Device memory (R45). -/
  mem : Memory
  env : Env
  /-- The stimuli presented and not yet served (log 1). -/
  inbox : List Stimulus
  /-- What the last command handed back (R13, log 2). -/
  result : Option Imm
  /-- The output events of the last step (R13, log 2). -/
  emitted : List Emission
deriving DecidableEq, Repr

/-- The reasons a step stops with a fault: none. `60_exceptions.md` R240: "Nothing in this core is fatal". -/
inductive Fault where
deriving DecidableEq, Repr

/-- The reasons a command has no meaning. -/
inductive Refusal where
  /-- Raised by an arm of `exec` whose instruction has no meaning yet. No arm raises it. Safe: the run stops. -/
  | notModelled (mnemonic : String)
deriving DecidableEq, Repr

/-- A channel right after boot (R48, R261). -/
def bootChannel (c : Config) : Channel where
  waveStart := 0
  waveEnd := 0
  waveAddr := 0
  waveFreq := 0
  waveIncrement := waveStep c 0 (clampVoices c.voicesDefault)
  waveControl := 0x01
  rampStart := 0
  rampEnd := 0
  rampVol := 0
  rampRate := 0
  rampIncrement := rampStep c 0 (clampVoices c.voicesDefault)
  rampControl := 0x01
  panPosition := c.panCentre
  attenL := attenLeft c c.panCentre 0
  attenR := attenRight c c.panCentre 0
  cacheValid := false
  cacheTag := 0

/-- The global register file right after boot (R48). -/
def bootGlobals (c : Config) : Globals where
  selChannel := 0
  mode := 0x00
  activeVoiceCount := BitVec.ofNat 6 (clampVoices c.voicesDefault)
  baseRate := rateOf c (clampVoices c.voicesDefault)
  waveIrq := 0
  rampIrq := 0
  timerIrq := 0
  irqChan := 0
  irqLine := false
  memAddr := 0
  dmaControl := 0
  dmaAddr := 0
  dmaCfgTotal := 0
  dmaCfgUnit := .one
  dmaCfgAuto := false
  dmaCfgInterval := 0

/-- A timer right after boot and after a device reset (R48). -/
def bootTimer : Timer where
  delay := 0
  reload := 0
  reached := false
  raiseIrq := false
  masked := false
  running := false

/-- The DMA engine right after boot (R48). -/
def bootDma : Dma where
  remaining := 0
  total := 0
  bytesPerUnit := .one
  intervalUs := 0
  running := false
  autoInit := false
  xfer := .idle

/-- The audio FIFO right after boot (R48); `buf` lists nothing (log 6). -/
def bootFifo : Fifo where
  buf := []
  writeIndex := 0
  readIndex := 0
  count := 0
  state := .stopped

/-- The state right after boot under configuration `c` (R48, R260): nothing presented, nothing handed back, no
answer supplied. -/
def State.boot (c : Config) : State where
  cfg := c
  chans := Vector.replicate 32 (bootChannel c)
  g := bootGlobals c
  tmr0 := bootTimer
  tmr1 := bootTimer
  dma := bootDma
  now := 0
  alarms := []
  nextAlarmId := 0
  events := List.replicate (3 + c.extEvents) ⟨none, 0⟩
  fifo := bootFifo
  mem := []
  env := ⟨[], [], 0⟩
  inbox := []
  result := none
  emitted := []

/-- The state right after boot under the configuration of R8's column "value in vectors". -/
def State.reset : State := State.boot vectorConfig

end Sys2Proof.Machine
end

