-- ==== Sys2Proof/Machine/Flags.lean ====
section
/-! DEFINITION. The cause flags and everything computed from them: the effective interrupt status, the blame pointer
and the interrupt line (`45_global.md` R216 to R219). All of it reads and writes the global register file only. -/

namespace Sys2Proof.Machine

/-- `ActiveMask`: bit `i` is set iff `i < activeVoiceCount` (`10_state.md` R32). -/
def activeMask (n : BitVec 6) : BitVec 32 := BitVec.ofNat 32 (2 ^ n.toNat - 1)

/-- The channels below the voice count with a wave or ramp cause (R219). -/
def voicePending (g : Globals) : BitVec 32 :=
  (g.waveIrq ||| g.rampIrq) &&& activeMask g.activeVoiceCount

/-- `ST_DMA` (R216). -/
def statusDma (g : Globals) : Bool := dmaTc g.dmaControl && dmaIrqEn g.dmaControl
/-- `ST_TIMER0` (R216). -/
def statusTimer0 (g : Globals) : Bool := g.timerIrq.getLsbD 0
/-- `ST_TIMER1` (R216). -/
def statusTimer1 (g : Globals) : Bool := g.timerIrq.getLsbD 1
/-- `ST_WAVE` (R216). -/
def statusWave (g : Globals) : Bool :=
  modeIrqMaster g.mode && (g.waveIrq &&& activeMask g.activeVoiceCount) != 0
/-- `ST_RAMP` (R216). -/
def statusRamp (g : Globals) : Bool :=
  modeIrqMaster g.mode && (g.rampIrq &&& activeMask g.activeVoiceCount) != 0

/-- `EffectiveIrqStatus()`: recomputed each time, never stored (R216). -/
def effectiveIrqStatus (g : Globals) : BitVec 5 :=
  BitVec.ofBool (statusRamp g) ++ BitVec.ofBool (statusWave g) ++ BitVec.ofBool (statusTimer1 g) ++
    BitVec.ofBool (statusTimer0 g) ++ BitVec.ofBool (statusDma g)

/-- The first channel at or above `k`, wrapping from 31 to 0, whose bit of `m` is set; at most `n` channels are
passed over (R219). -/
def blameFrom (m : BitVec 32) : Nat → BitVec 5 → BitVec 5
  | 0, k => k
  | n + 1, k => if m.getLsbD k.toNat then k else blameFrom m n (k + 1)

/-- The value `UpdateBlame()` gives `irq_chan` (R219). -/
def blamedChannel (g : Globals) : BitVec 5 :=
  if voicePending g = 0 then g.irqChan else blameFrom (voicePending g) 32 g.irqChan

/-- `UpdateIrq()` on the register file: first the blame pointer, then the line (R217). -/
def irqUpdated (g : Globals) : Globals :=
  { g with irqChan := blamedChannel g, irqLine := effectiveIrqStatus g != 0 }

/-- `UpdateIrq()` (R217). -/
def updateIrq (s : State) : State := { s with g := irqUpdated s.g }

/-- Sets bit `i` of a 32-bit cause mask when `raised` (R171, R177). -/
def raiseCause (raised : Bool) (i : ChanIdx) (m : BitVec 32) : BitVec 32 :=
  if raised then m ||| (1#32 <<< i.val) else m

/-- Clears bit `k` of a 32-bit cause mask (R221). -/
def clearCause (k : BitVec 5) (m : BitVec 32) : BitVec 32 := m &&& ~~~(1#32 <<< k.toNat)

/-- The pointer stands on an active channel. A channel at or above the voice count is never blamed and its causes cannot
be acknowledged: R221's corner cases and `70_reset_and_hazards.md` R271 (H12), followed over R221's pseudocode
(DESIGN CHOICE, log 26). -/
def blameActive (g : Globals) : Bool := decide (g.irqChan.toNat < g.activeVoiceCount.toNat)

/-- The register file with the two causes of the blamed channel cleared (R221, log 26). -/
def blameCleared (g : Globals) : Globals :=
  if blameActive g then
    { g with waveIrq := clearCause g.irqChan g.waveIrq, rampIrq := clearCause g.irqChan g.rampIrq }
  else g

/-- Sets bit `t` of the timer cause flags (R226). -/
def raiseTimerCause (t : BitVec 1) (m : BitVec 2) : BitVec 2 := m ||| (1#2 <<< t.toNat)

/-- The timer cause flags with the bits of `mask` cleared (R227). -/
def clearTimerCauses (mask m : BitVec 2) : BitVec 2 := m &&& ~~~mask

end Sys2Proof.Machine
end

