-- ==== Sys2Proof/WellFormed.lean ====
section
/-! DEFINITION. Which commands are defined: the one check the spec puts on operands (`30_encoding.md` R85). -/

namespace Sys2Proof

/-- `e` is an external event, which the command port may arm and remove (`40_scheduler.md` R101, R104, R105). -/
abbrev Config.isExternal (c : Config) (e : Nat) : Bool := 3 ≤ e && e < 3 + c.extEvents

/-- `e` is an event id of R101, which the command port may read (R114). -/
abbrev Config.isEvent (c : Config) (e : Nat) : Bool := e < 3 + c.extEvents

/-- The command is defined under configuration `c`. R85: an event id out of range, or in `EV_ADD` and `EV_REMOVE` an
event of the block itself, makes the command undefined; every other operand is accepted at every bit pattern. -/
def Instr.wf (c : Config) : Instr → Bool
  | .selCh _ | .setWctrl _ | .setWfreq _ | .setWstart _ | .setWend _ | .setWaddr _ => true
  | .setRctrl _ | .setRrate _ | .setRstart _ | .setRend _ | .setRvol _ | .setPan _ => true
  | .getCh | .getWctrl | .getWfreq | .getWstart | .getWend | .getWaddr => true
  | .getRctrl | .getRrate | .getRstart | .getRend | .getRvol | .getPan => true
  | .reset _ | .getMode | .setVoices _ | .getVoices | .getRate | .getIrqst | .ackVirq => true
  | .memAddr _ | .getMemaddr | .memPoke _ | .memPeek => true
  | .tmrCfg _ _ _ _ _ | .tmrAck _ | .getTmr _ => true
  | .dmaSetup _ _ _ | .dmaInterval _ | .dmaAddr _ | .getDmaaddr | .setDmactl _ | .getDmactl => true
  | .fifoPush _ | .fifoPop | .getFifo => true
  | .evAdd e _ _ => c.isExternal e.toNat
  | .evRemove e => c.isExternal e.toNat
  | .getEv e => c.isEvent e.toNat
  | .tick _ _ | .wait _ => true

end Sys2Proof
end

