-- ==== Sys2Proof/Machine/Ops.lean ====
section
/-! DEFINITION. The named operations over memory, registers, the scheduler table and the DMA engine, and the block's
one transfer of control: the dispatch of an alarm's handler and the return by its value. -/

namespace Sys2Proof.Machine

/-! ### Byte stores (`00_scope.md` R12) -/

/-- The byte at `a`: the listed one, else the boot contents. -/
def Memory.read (f : Fill) : Memory → Nat → Byte
  | [], a => fillByte f a
  | (b, v) :: m, a => if a = b then v else Memory.read f m a

/-- The store without the cells at `a`. -/
def Memory.erase (m : Memory) (a : Nat) : Memory := m.filter (fun c => c.1 != a)

/-- The store with a cell put before the first cell of a higher address. -/
def Memory.insert (a : Nat) (v : Byte) : Memory → Memory
  | [] => [(a, v)]
  | c :: m => if c.1 < a then c :: Memory.insert a v m else (a, v) :: c :: m

/-- The store with `v` at `a`, listed unless `v` is the boot contents of `a`. -/
def Memory.write (f : Fill) (m : Memory) (a : Nat) (v : Byte) : Memory :=
  if v = fillByte f a then Memory.erase m a else Memory.insert a v (Memory.erase m a)

/-- The canonical form: addresses strictly rising and below `size`, and no cell equal to the boot contents. -/
abbrev Memory.WF (f : Fill) (size : Nat) (m : Memory) : Prop :=
  m.Pairwise (fun x y => x.1 < y.1) ∧ ∀ c ∈ m, c.1 < size ∧ c.2 ≠ fillByte f c.1

/-- The byte of device memory at index `a` (R12). -/
def State.byteAt (s : State) (a : Nat) : Byte := Memory.read s.cfg.memFill s.mem a

/-- `MemRead(addr, 1)` (R12, `20_memory.md` R65). -/
def State.memRead (s : State) (a : Addr) : Byte := s.byteAt (maskAddr s.cfg a)

/-- `MemWrite(addr, 1, v)` (R12, R65). -/
def State.memWrite (a : Addr) (v : Byte) (s : State) : State :=
  { s with mem := Memory.write s.cfg.memFill s.mem (maskAddr s.cfg a) v }

/-! ### What a command hands back, what a rule emits (R13) -/

/-- The command hands back `v`. -/
def State.ret (v : Imm) (s : State) : State := { s with result := some v }

/-- The command hands back nothing. -/
def State.done (s : State) : State := { s with result := none }

/-- `emit X(...)` and `log(...)`. -/
def State.emit (x : Emission) (s : State) : State := { s with emitted := s.emitted ++ [x] }

/-- An undefined command: no state change, `READ_SENTINEL` handed back (`30_encoding.md` R84). -/
def undefinedCommand (s : State) : State :=
  (s.emit (.log .undefinedCommand)).ret s.cfg.readSentinel

/-! ### Channels, timers, events -/

/-- The channel that a 5-bit number names. -/
def chanOf (k : BitVec 5) : ChanIdx := ⟨k.toNat, k.isLt⟩

/-- `ch[i]`. -/
def State.chan (s : State) (i : ChanIdx) : Channel := s.chans.get i

/-- `ch[i] <- c`. -/
def State.setChan (i : ChanIdx) (c : Channel) (s : State) : State :=
  { s with chans := s.chans.set i.val c i.isLt }

/-- The same function on every channel. -/
def mapChannels (f : Channel → Channel) (v : Vector Channel 32) : Vector Channel 32 :=
  ⟨⟨v.toArray.toList.map f⟩, by simp⟩

/-- The selected channel's number (`42_channel_regs.md` R140). -/
def State.sel (s : State) : ChanIdx := chanOf s.g.selChannel

/-- The selected channel. -/
def State.selChan (s : State) : Channel := s.chan s.sel

/-- The selected channel rewritten. -/
def State.onSel (f : Channel → Channel) (s : State) : State := s.setChan s.sel (f s.selChan)

/-- The global register file rewritten. -/
def State.onG (f : Globals → Globals) (s : State) : State := { s with g := f s.g }

/-- `UpdateAtten` on a channel (`44_fetch_mix.md` R195). -/
def Channel.updateAtten (c : Config) (ch : Channel) : Channel :=
  { ch with
    attenL := attenLeft c ch.panPosition ch.rampVol
    attenR := attenRight c ch.panPosition ch.rampVol }

/-- `tmr[t]`. -/
def State.tmr (s : State) (t : BitVec 1) : Timer := if t = 0#1 then s.tmr0 else s.tmr1

/-- `tmr[t] <- x`. -/
def State.setTmr (t : BitVec 1) (x : Timer) (s : State) : State :=
  if t = 0#1 then { s with tmr0 := x } else { s with tmr1 := x }

/-- The list with `x` at position `e`, made longer with inactive events where it is too short (log 19). -/
def setSlot : List EventSlot → Nat → EventSlot → List EventSlot
  | [], 0, x => [x]
  | [], e + 1, x => ⟨none, 0⟩ :: setSlot [] e x
  | _ :: l, 0, x => x :: l
  | y :: l, e + 1, x => y :: setSlot l e x

/-- `ev[e]` (R42). -/
def State.event (s : State) (e : Nat) : EventSlot := s.events.getD e ⟨none, 0⟩

/-- `ev[e].pending`. -/
def State.pending (s : State) (e : Nat) : Option Nat := (s.event e).pending

/-- `ev[e] <- x`. -/
def State.setEvent (e : Nat) (x : EventSlot) (s : State) : State :=
  { s with events := setSlot s.events e x }

/-- `ev[e].pending <- p`. -/
def State.setPending (e : Nat) (p : Option Nat) (s : State) : State :=
  s.setEvent e { s.event e with pending := p }

/-- `EV_DMA` (R101). -/
abbrev evDma : Nat := 0
/-- `EV_TIMER0 + t` (R101). -/
abbrev evTimer (t : BitVec 1) : Nat := 1 + t.toNat

/-! ### The scheduler's procedures (`40_scheduler.md` R102, R103) -/

/-- `SchedRemove(e)` (R103): an unexpired pending alarm leaves the table, an expired one stays and is stale. -/
def schedRemove (e : Nat) (s : State) : State :=
  match s.pending e with
  | none => s
  | some id =>
    State.setPending e none
      { s with alarms := s.alarms.filter (fun a => !(a.id == id && !a.expired)) }

/-- `SchedAdd(e, delay_us, value)` (R102). -/
def schedAdd (e : Nat) (delayUs value : BitVec 32) (s : State) : State :=
  let r := schedRemove e s
  if r.cfg.schedCapacity ≤ r.alarms.length then
    r.emit (.log .schedulerTableFull)
  else
    State.setEvent e ⟨some r.nextAlarmId, value⟩
      { r with
        nextAlarmId := r.nextAlarmId + 1
        alarms := r.alarms ++ [⟨r.nextAlarmId, e, r.now + delayUs.toNat, false⟩] }

/-- A scheduler call of a peripheral; it reaches external events only (R101, R109; log 8). -/
def clientCall (c : ClientCall) (s : State) : State :=
  match c with
  | .add e delayUs value => if s.cfg.isExternal e then schedAdd e delayUs value s else s
  | .remove e => if s.cfg.isExternal e then schedRemove e s else s

/-! ### The DMA engine (`41_dma.md` R121 to R125) -/

/-- `DmaStart(total_units, bytes_per_unit, interval_us, auto_init)` (R121). -/
def dmaStart (total : BitVec 32) (unit : UnitWidth) (interval : BitVec 32) (auto : Bool) (s : State) : State :=
  if s.dma.running then
    s.emit (.log .dmaAlreadyRunning)
  else
    let us := if s.cfg.dmaIntervalOverride ≠ 0 then s.cfg.dmaIntervalOverride else interval
    if total = 0 ∨ us = 0 then s
    else
      let armed := schedAdd evDma us 0
        { s with dma :=
            { s.dma with
              total := total, remaining := total, bytesPerUnit := unit,
              intervalUs := us, autoInit := auto, running := true } }
      if armed.pending evDma = none then { armed with dma := { armed.dma with running := false } }
      else armed

/-- `DmaCancel()` (R123). -/
def dmaCancel (s : State) : State :=
  let r := schedRemove evDma s
  { r with dma := { r.dma with running := false, xfer := .idle } }

/-- `Draw(u8)`: the host's next byte (R13, R125): a supplied one, else a free value (log 7). -/
def drawHostByte (s : State) : Byte × State :=
  match s.env.hostBytes with
  | b :: rest => (b, { s with env := { s.env with hostBytes := rest } })
  | [] => (Config.freeHostByte s.env.draws, { s with env := { s.env with draws := s.env.draws + 1 } })

/-- A cycle from the host to device memory (R125, `DIR = 0`). -/
def transferIn (s : State) : State :=
  let a := s.g.dmaAddr
  match s.dma.bytesPerUnit with
  | .one =>
    let d := drawHostByte s
    (d.2.memWrite a d.1).emit (.dmaIn a [d.1])
  | .two =>
    let d0 := drawHostByte s
    let d1 := drawHostByte (d0.2.memWrite a d0.1)
    (d1.2.memWrite (a + 1) d1.1).emit (.dmaIn a [d0.1, d1.1])

/-- A cycle from device memory to the host (R125, `DIR = 1`). -/
def transferOut (s : State) : State :=
  let a := s.g.dmaAddr
  match s.dma.bytesPerUnit with
  | .one => s.emit (.dmaOut a [s.memRead a])
  | .two => s.emit (.dmaOut a [s.memRead a, s.memRead (a + 1)])

/-- The number of bytes of one unit (R38). -/
def unitBytes : UnitWidth → Nat
  | .one => 1
  | .two => 2

/-- `TransferCycle()`: exactly one unit, the address advanced modulo `2^24`, the transport idle again (R125). -/
def transferCycle (s : State) : State :=
  let moved :=
    let started := { s with dma := { s.dma with xfer := .inflight } }
    if dmaDir s.g.dmaControl then transferOut started else transferIn started
  { moved with
    g := { moved.g with dmaAddr := s.g.dmaAddr + BitVec.ofNat 24 (unitBytes s.dma.bytesPerUnit) }
    dma := { moved.dma with xfer := .idle } }

/-- `DmaTick(value)`, the handler of `EV_DMA`: the state and the reschedule interval (R122, R124). -/
def dmaTick (s : State) : State × BitVec 32 :=
  if !s.dma.running then (s, 0)
  else
    let moved := transferCycle s
    let left := moved.dma.remaining - 1
    if left ≠ 0 then
      ({ moved with dma := { moved.dma with remaining := left } }, moved.dma.intervalUs)
    else
      let g := { moved.g with dmaControl := dmaAtTerminalCount moved.g.dmaControl }
      if moved.dma.autoInit then
        (updateIrq { moved with g := g, dma := { moved.dma with remaining := moved.dma.total } },
          moved.dma.intervalUs)
      else
        (updateIrq { moved with g := g, dma := { moved.dma with remaining := 0, running := false } }, 0)

/-! ### Hardware timers and external handlers -/

/-- `TimerFire(value)`, the handler of `EV_TIMER0` and `EV_TIMER1` (`45_global.md` R226). -/
def timerFire (value : BitVec 32) (s : State) : State × BitVec 32 :=
  let t : BitVec 1 := value.extractLsb' 0 1
  let x := s.tmr t
  if !x.running then (s, 0)
  else
    let marked := s.setTmr t { x with reached := x.reached || !x.masked }
    let flagged := if x.raiseIrq then marked.onG (fun g => { g with timerIrq := raiseTimerCause t g.timerIrq }) else marked
    (updateIrq flagged, x.delay)

/-- The answer of an external handler: a supplied one, else a free value (R109, log 7). -/
def drawExtAnswer (s : State) : ExtAnswer × State :=
  match s.env.extAnswers with
  | x :: rest => (x, { s with env := { s.env with extAnswers := rest } })
  | [] => (Config.freeExtAnswer s.env.draws, { s with env := { s.env with draws := s.env.draws + 1 } })

/-- The handler of an external event: the fire is emitted, the peripheral's scheduler calls happen, its value is
returned (R109). -/
def extHandler (e : Nat) (value : BitVec 32) (due : Nat) (s : State) : State × BitVec 32 :=
  let d := drawExtAnswer (s.emit (.extFire e value due))
  (d.1.calls.foldl (fun s c => clientCall c s) d.2, d.1.ret)

/-- `Handler[e](value)` (R109). -/
def runHandler (e : Nat) (value : BitVec 32) (due : Nat) (s : State) : State × BitVec 32 :=
  if e = evDma then dmaTick s
  else if e = 1 ∨ e = 2 then timerFire value s
  else extHandler e value due s

/-! ### Handler entry and return (`60_exceptions.md` R248, R249) -/

/-- `a` fires before `b`: least intended time, then least id (R108). -/
def Alarm.before (a b : Alarm) : Bool := a.due < b.due || (a.due == b.due && a.id < b.id)

/-- The entry with the least `(due, id)` (R108, R111). -/
def leastAlarm : List Alarm → Option Alarm
  | [] => none
  | a :: l =>
    match leastAlarm l with
    | none => some a
    | some b => if b.before a then some b else some a

/-- `alarms <- alarms - a`, by id (R103, R108; log 20). -/
def State.dropAlarm (id : Nat) (s : State) : State :=
  { s with alarms := s.alarms.filter (fun a => a.id != id) }

/-- The entry re-armed in its slot: a new intended time, not expired (R108). -/
def State.rearmAlarm (id due : Nat) (s : State) : State :=
  { s with alarms := s.alarms.map (fun a => if a.id = id then { a with due := due, expired := false } else a) }

/-- `AlarmExpire(a)` where it is enabled: the entry is not expired and due (R107). -/
def alarmExpire (id : Nat) (s : State) : State :=
  { s with
    alarms := s.alarms.map (fun a => if a.id = id ∧ a.due ≤ s.now then { a with expired := true } else a) }

/-- The return from a handler by its value `r` (R249, R108): ignored where the handler re-armed or removed its event;
0 deactivates; any other value re-arms the same entry `r` microseconds after its intended time. -/
def handlerReturn (a : Alarm) (r : BitVec 32) (s : State) : State :=
  if s.pending a.ev ≠ some a.id then s.dropAlarm a.id
  else if r = 0 then (s.setPending a.ev none).dropAlarm a.id
  else s.rearmAlarm a.id (a.due + r.toNat)

/-- The entry into the handler of an expired alarm (R248, R108): a stale entry is dropped without its handler. -/
def handlerEntry (a : Alarm) (s : State) : State :=
  if s.pending a.ev ≠ some a.id then s.dropAlarm a.id
  else
    let h := runHandler a.ev (s.event a.ev).value a.due s
    handlerReturn a h.2 h.1

/-- `AlarmDispatch()` (R108); without an expired entry it is not enabled and nothing happens (log 10). -/
def alarmDispatch (s : State) : State :=
  match leastAlarm (s.alarms.filter (fun a => a.expired)) with
  | none => s
  | some a => handlerEntry a s

/-! ### `WAIT` (`40_scheduler.md` R111) -/

/-- The entry that `WAIT` serves next: the least one that has expired or falls due by `target`. -/
def waitNext (target : Nat) (s : State) : Option Alarm :=
  leastAlarm (s.alarms.filter (fun a => a.expired || decide (a.due ≤ target)))

/-- One round of `WAIT`'s loop: the clock at the entry's time, the entry expired and dispatched. -/
def waitRound (a : Alarm) (s : State) : State :=
  alarmDispatch (alarmExpire a.id { s with now := max s.now a.due })

/-- `WAIT`'s loop, at most `n` rounds; what is left then stands first in the inbox (log 9). -/
def waitLoop (target : Nat) : Nat → State → State
  | 0, s =>
    match waitNext target s with
    | none => { s with now := target }
    | some _ => { s with inbox := .waitUntil target :: s.inbox }
  | n + 1, s =>
    match waitNext target s with
    | none => { s with now := target }
    | some a => waitLoop target n (waitRound a s)

/-- How many more rounds an entry can take: each round drops it or moves its time forward. -/
def alarmRounds (target : Nat) (a : Alarm) : Nat :=
  (if a.due ≤ target then target + 1 - a.due else 0) + (if a.expired then 1 else 0)

/-- The rounds a `WAIT` can take if only the supplied external answers arm alarms (log 9). -/
def waitRounds (target : Nat) (s : State) : Nat :=
  (s.alarms.map (alarmRounds target)).sum +
    (s.env.extAnswers.map (fun x => x.calls.length)).sum * (target + 1 - s.now)

/-- The rest of a `WAIT` that ends at `target`. -/
def waitUntil (target : Nat) (s : State) : State := waitLoop target (waitRounds target s) s

/-! ### Device-wide operations (`45_global.md` R211, R213) -/

/-- The increments of a channel for a voice count (R213). -/
def Channel.rescale (c : Config) (n : Nat) (ch : Channel) : Channel :=
  { ch with waveIncrement := waveStep c ch.waveFreq n, rampIncrement := rampStep c ch.rampRate n }

/-- `SetVoiceCount(n)` (R213). -/
def setVoiceCount (n : Nat) (s : State) : State :=
  { s with
    g := { s.g with activeVoiceCount := BitVec.ofNat 6 (clampVoices n), baseRate := rateOf s.cfg (clampVoices n) }
    chans := mapChannels (Channel.rescale s.cfg (clampVoices n)) s.chans }

/-- What a device reset does to each channel (R211). -/
def Channel.deviceReset (c : Config) (ch : Channel) : Channel :=
  Channel.updateAtten c
    { ch with rampVol := 0, waveControl := 0x01, rampControl := 0x01, panPosition := c.panCentre, cacheValid := false }

/-- `DeviceReset()` (R211). -/
def deviceReset (s : State) : State :=
  let cancelled := dmaCancel { s with chans := mapChannels (Channel.deviceReset s.cfg) s.chans }
  let cleared :=
    { cancelled with
      g := { cancelled.g with dmaControl := 0, waveIrq := 0, rampIrq := 0, timerIrq := 0, irqChan := 0 } }
  let stopped := { schedRemove (evTimer 1) (schedRemove (evTimer 0) cleared) with tmr0 := bootTimer, tmr1 := bootTimer }
  setVoiceCount s.cfg.voicesDefault stopped

end Sys2Proof.Machine
end

