-- ==== Sys2Proof/Machine/ChannelRegs.lean ====
section
/-! DEFINITION. The meanings of the channel register commands (`42_channel_regs.md`). Each acts on the selected
channel and on nothing else (R140). -/

namespace Sys2Proof.Machine

open Host (Outcome)

/-- `SEL_CH n` (R141). -/
def execSelCh (n : BitVec 5) (s : State) : Outcome State Fault Refusal :=
  .next (s.onG (fun g => { g with selChannel := n })).done

/-- `SET_WCTRL v` (R143). -/
def execSetWctrl (v : BitVec 8) (s : State) : Outcome State Fault Refusal :=
  .next (s.onSel (fun c => { c with waveControl := v })).done

/-- `SET_WFREQ f` (R145). -/
def execSetWfreq (f : BitVec 16) (s : State) : Outcome State Fault Refusal :=
  .next (s.onSel (fun c =>
    { c with waveFreq := f, waveIncrement := waveStep s.cfg f s.g.activeVoiceCount.toNat })).done

/-- `SET_WSTART a` (R148). -/
def execSetWstart (a : WaveQ) (s : State) : Outcome State Fault Refusal :=
  .next (s.onSel (fun c => { c with waveStart := a })).done

/-- `SET_WEND a` (R150). -/
def execSetWend (a : WaveQ) (s : State) : Outcome State Fault Refusal :=
  .next (s.onSel (fun c => { c with waveEnd := a })).done

/-- `SET_WADDR a` (R153). -/
def execSetWaddr (a : WaveQ) (s : State) : Outcome State Fault Refusal :=
  .next (s.onSel (fun c => { c with waveAddr := a })).done

/-- `SET_RCTRL v` (R155). -/
def execSetRctrl (v : BitVec 8) (s : State) : Outcome State Fault Refusal :=
  .next (s.onSel (fun c => { c with rampControl := v })).done

/-- `SET_RRATE r` (R157). -/
def execSetRrate (r : BitVec 8) (s : State) : Outcome State Fault Refusal :=
  .next (s.onSel (fun c =>
    { c with rampRate := r, rampIncrement := rampStep s.cfg r s.g.activeVoiceCount.toNat })).done

/-- `SET_RSTART v` (R159). -/
def execSetRstart (v : RampQ) (s : State) : Outcome State Fault Refusal :=
  .next (s.onSel (fun c => { c with rampStart := v })).done

/-- `SET_REND v` (R161). -/
def execSetRend (v : RampQ) (s : State) : Outcome State Fault Refusal :=
  .next (s.onSel (fun c => { c with rampEnd := v })).done

/-- `SET_RVOL v` (R163). -/
def execSetRvol (v : RampQ) (s : State) : Outcome State Fault Refusal :=
  .next (s.onSel (fun c =>
    Channel.updateAtten s.cfg { c with rampVol := clampRamp s.cfg v.toNat })).done

/-- `SET_PAN p` (R165). -/
def execSetPan (p : BitVec 4) (s : State) : Outcome State Fault Refusal :=
  .next (s.onSel (fun c => Channel.updateAtten s.cfg { c with panPosition := p })).done

/-- `GET_CH` (R142). -/
def execGetCh (s : State) : Outcome State Fault Refusal :=
  .next (s.ret (s.g.selChannel.setWidth 48))

/-- `GET_WCTRL` (R144). -/
def execGetWctrl (s : State) : Outcome State Fault Refusal :=
  .next (s.ret (s.selChan.waveControl.setWidth 48))

/-- `GET_WFREQ` (R146). -/
def execGetWfreq (s : State) : Outcome State Fault Refusal :=
  .next (s.ret (s.selChan.waveFreq.setWidth 48))

/-- `GET_WSTART` (R149). -/
def execGetWstart (s : State) : Outcome State Fault Refusal :=
  .next (s.ret (s.selChan.waveStart.setWidth 48))

/-- `GET_WEND` (R151). -/
def execGetWend (s : State) : Outcome State Fault Refusal :=
  .next (s.ret (s.selChan.waveEnd.setWidth 48))

/-- `GET_WADDR` (R154). -/
def execGetWaddr (s : State) : Outcome State Fault Refusal :=
  .next (s.ret (s.selChan.waveAddr.setWidth 48))

/-- `GET_RCTRL` (R156). -/
def execGetRctrl (s : State) : Outcome State Fault Refusal :=
  .next (s.ret (s.selChan.rampControl.setWidth 48))

/-- `GET_RRATE` (R158). -/
def execGetRrate (s : State) : Outcome State Fault Refusal :=
  .next (s.ret (s.selChan.rampRate.setWidth 48))

/-- `GET_RSTART` (R160). -/
def execGetRstart (s : State) : Outcome State Fault Refusal :=
  .next (s.ret (s.selChan.rampStart.setWidth 48))

/-- `GET_REND` (R162). -/
def execGetRend (s : State) : Outcome State Fault Refusal :=
  .next (s.ret (s.selChan.rampEnd.setWidth 48))

/-- `GET_RVOL` (R164). -/
def execGetRvol (s : State) : Outcome State Fault Refusal :=
  .next (s.ret (s.selChan.rampVol.setWidth 48))

/-- `GET_PAN` (R166). -/
def execGetPan (s : State) : Outcome State Fault Refusal :=
  .next (s.ret (s.selChan.panPosition.setWidth 48))

end Sys2Proof.Machine
end

