-- ==== Sys2Proof/Machine/DmaFifo.lean ====
section
/-! DEFINITION. The meanings of the DMA and audio FIFO commands (`41_dma.md`). -/

namespace Sys2Proof.Machine

open Host (Outcome)

/-- `DMA_SETUP auto, w16, total` (R126). -/
def execDmaSetup (auto w16 : Bool) (total : BitVec 32) (s : State) : Outcome State Fault Refusal :=
  .next (s.onG (fun g =>
    { g with dmaCfgAuto := auto, dmaCfgUnit := if w16 then .two else .one, dmaCfgTotal := total })).done

/-- `DMA_INTERVAL us` (R127). -/
def execDmaInterval (us : BitVec 32) (s : State) : Outcome State Fault Refusal :=
  .next (s.onG (fun g => { g with dmaCfgInterval := us })).done

/-- `DMA_ADDR a` (R128). -/
def execDmaAddr (a : Addr) (s : State) : Outcome State Fault Refusal :=
  .next (s.onG (fun g => { g with dmaAddr := a })).done

/-- `GET_DMAADDR` (R131). -/
def execGetDmaaddr (s : State) : Outcome State Fault Refusal :=
  .next (s.ret (s.g.dmaAddr.setWidth 48))

/-- `SET_DMACTL v` (R129). -/
def execSetDmactl (v : BitVec 8) (s : State) : Outcome State Fault Refusal :=
  let stored := s.onG (fun g => { g with dmaControl := dmaSetByte g.dmaControl v })
  let coupled :=
    if dmaEnable v then
      dmaStart s.g.dmaCfgTotal s.g.dmaCfgUnit s.g.dmaCfgInterval s.g.dmaCfgAuto stored
    else dmaCancel stored
  .next (updateIrq coupled).done

/-- `GET_DMACTL` (R130): the read clears `TC`. -/
def execGetDmactl (s : State) : Outcome State Fault Refusal :=
  let cleared := s.onG (fun g => { g with dmaControl := dmaClearTc g.dmaControl })
  .next ((updateIrq cleared).ret (s.g.dmaControl.setWidth 48))

/-- The FIFO after a byte is pushed where there is room (R133). -/
def Fifo.push (c : Config) (b : Byte) (f : Fifo) : Fifo where
  buf := Memory.write c.fifoFill f.buf f.writeIndex b
  writeIndex := (f.writeIndex + 1) % c.fifoCapacity
  readIndex := f.readIndex
  count := f.count + 1
  state := if f.state = .stopped ∧ c.fifoThreshold ≤ f.count + 1 then .running else f.state

/-- `FIFO_PUSH b` (R133): a full FIFO rejects the byte. -/
def execFifoPush (b : Byte) (s : State) : Outcome State Fault Refusal :=
  if s.fifo.count = s.cfg.fifoCapacity - 1 then .next (s.emit (.log .fifoFull)).done
  else .next { s with fifo := Fifo.push s.cfg b s.fifo }.done

/-- The FIFO after a byte is popped (R134). -/
def Fifo.pop (c : Config) (f : Fifo) : Fifo where
  buf := f.buf
  writeIndex := f.writeIndex
  readIndex := (f.readIndex + 1) % c.fifoCapacity
  count := f.count - 1
  state := if f.count - 1 = 0 then .stopped else f.state

/-- `FIFO_POP` (R134): nothing is consumed while stopped. -/
def execFifoPop (s : State) : Outcome State Fault Refusal :=
  match s.fifo.state with
  | .stopped => .next (s.ret 0)
  | .running =>
    let b := Memory.read s.cfg.fifoFill s.fifo.buf s.fifo.readIndex
    .next ({ s with fifo := Fifo.pop s.cfg s.fifo }.ret (0x100#48 ||| b.setWidth 48))

/-- The value `GET_FIFO` hands back: count in bits 15:0, state in bit 16 (R135). -/
def fifoValue (f : Fifo) : BitVec 17 :=
  BitVec.ofBool (f.state = .running) ++ BitVec.ofNat 16 f.count

/-- `GET_FIFO` (R135). -/
def execGetFifo (s : State) : Outcome State Fault Refusal :=
  .next (s.ret ((fifoValue s.fifo).setWidth 48))

end Sys2Proof.Machine
end

