-- ==== Sys2Proof/Machine/Audio.lean ====
section
/-! DEFINITION. The wave and ramp generators (`43_wave_ramp.md`), the sample fetch, the mix and the audio tick
(`44_fetch_mix.md`). -/

namespace Sys2Proof.Machine

/-! ### Wave generator (R170 to R176) -/

/-- The advanced address, modulo `2^34`, not range-checked (R171, R173). -/
def Channel.waveNext (c : Channel) : WaveQ :=
  if ctlDec c.waveControl then c.waveAddr - c.waveIncrement else c.waveAddr + c.waveIncrement

/-- The advanced address, after its wrap, lies strictly beyond the boundary it moves toward (R171, R174). Where R173,
R174 (d) or R175 say of a wrapped address what this test does not give, the test is followed (DEDUCED, log 24). -/
def Channel.waveHit (c : Channel) : Bool :=
  if ctlDec c.waveControl then c.waveNext.ult c.waveStart else c.waveEnd.ult c.waveNext

/-- The overshoot (R171, R174 (b)). -/
def Channel.waveOver (c : Channel) : WaveQ :=
  if ctlDec c.waveControl then c.waveStart - c.waveNext else c.waveNext - c.waveEnd

/-- The channel after a boundary hit: rollover before loop before stop (R171, R176). -/
def Channel.waveBoundary (c : Channel) : Channel :=
  if ctlRollover c.rampControl then
    { c with waveAddr := c.waveNext }
  else if ctlLoop c.waveControl then
    if ctlBidir c.waveControl then
      { c with
        waveAddr := if ctlDec c.waveControl then c.waveStart + c.waveOver else c.waveEnd - c.waveOver
        waveControl := ctlFlipDec c.waveControl }
    else
      { c with waveAddr := if ctlDec c.waveControl then c.waveEnd - c.waveOver else c.waveStart + c.waveOver }
  else
    { c with
      waveAddr := if ctlDec c.waveControl then c.waveStart else c.waveEnd
      waveControl := ctlStop c.waveControl }

/-- `AdvanceWave` on the channel itself (R171). -/
def Channel.advanceWave (c : Channel) : Channel :=
  if ctlStopped c.waveControl then c
  else if c.waveHit then c.waveBoundary
  else { c with waveAddr := c.waveNext }

/-- `AdvanceWave` raises the channel's wave cause flag (R171, R176). -/
def Channel.waveRaises (c : Channel) : Bool :=
  !ctlStopped c.waveControl && c.waveHit && ctlIrqEn c.waveControl

/-- `AdvanceWave(i)` (R171). -/
def advanceWave (i : ChanIdx) (s : State) : State :=
  let c := s.chan i
  (s.setChan i c.advanceWave).onG (fun g => { g with waveIrq := raiseCause c.waveRaises i g.waveIrq })

/-! ### Ramp generator (R177, R178) -/

/-- The advanced level on unbounded integers (R177). -/
def Channel.rampNext (c : Channel) : Int :=
  if ctlDec c.rampControl then (c.rampVol.toNat : Int) - c.rampIncrement.toNat
  else (c.rampVol.toNat : Int) + c.rampIncrement.toNat

/-- The advanced level, before the clamp, lies strictly beyond the boundary it moves toward (R177). So a `ramp_end` at or
above `MAX_RAMP` can be hit, which R178 (c) denies: DEDUCED, log 24. -/
def Channel.rampHit (c : Channel) : Bool :=
  if ctlDec c.rampControl then decide (c.rampNext < c.rampStart.toNat) else decide (c.rampNext > c.rampEnd.toNat)

/-- The overshoot (R177). -/
def Channel.rampOver (c : Channel) : Int :=
  if ctlDec c.rampControl then c.rampStart.toNat - c.rampNext else c.rampNext - c.rampEnd.toNat

/-- The level after a boundary hit, before the clamp: loop and bounce keep the overshoot, stop does not (R177). -/
def Channel.rampBoundaryLevel (c : Channel) : Int :=
  if ctlLoop c.rampControl then
    if ctlBidir c.rampControl then
      if ctlDec c.rampControl then c.rampStart.toNat + c.rampOver else c.rampEnd.toNat - c.rampOver
    else
      if ctlDec c.rampControl then c.rampEnd.toNat - c.rampOver else c.rampStart.toNat + c.rampOver
  else
    if ctlDec c.rampControl then c.rampStart.toNat else c.rampEnd.toNat

/-- The ramp control byte after a boundary hit (R177). -/
def Channel.rampBoundaryControl (c : Channel) : BitVec 8 :=
  if ctlLoop c.rampControl then
    if ctlBidir c.rampControl then ctlFlipDec c.rampControl else c.rampControl
  else ctlStop c.rampControl

/-- `AdvanceRamp` on the channel itself (R177). With an increment of 0 a level beyond its boundary is hit on this tick,
and on the next one only if the stop, loop or bounce left it running beyond a boundary; R178 (a) has every tick a hit:
DEDUCED, log 24. After a hit the level is clamped, so R178 (e) holds below `MAX_RAMP` only (log 24). -/
def Channel.advanceRamp (cfg : Config) (c : Channel) : Channel :=
  if ctlStopped c.rampControl then c
  else if c.rampHit then
    Channel.updateAtten cfg
      { c with rampVol := clampRamp cfg c.rampBoundaryLevel, rampControl := c.rampBoundaryControl }
  else
    Channel.updateAtten cfg { c with rampVol := clampRamp cfg c.rampNext }

/-- `AdvanceRamp` raises the channel's ramp cause flag (R177). -/
def Channel.rampRaises (c : Channel) : Bool :=
  !ctlStopped c.rampControl && c.rampHit && ctlIrqEn c.rampControl

/-- `AdvanceRamp(i)` (R177). -/
def advanceRamp (i : ChanIdx) (s : State) : State :=
  let c := s.chan i
  (s.setChan i (c.advanceRamp s.cfg)).onG (fun g => { g with rampIrq := raiseCause c.rampRaises i g.rampIrq })

/-! ### Sample fetch (R190 to R194) -/

/-- The two samples around an integer address, in 8-bit mode (R191). -/
def samplePair8 (s : State) (a : Addr) : Int × Int :=
  (sample8 (s.memRead a), sample8 (s.memRead (a + 1)))

/-- The 16-bit sample at a byte address, low byte first (R61, R192). -/
def wordAt (s : State) (a : Addr) : Int := sample16 (s.memRead (a + 1)) (s.memRead a)

/-- The two samples around a sample index, in 16-bit mode (R192). -/
def samplePair16 (s : State) (a : Addr) : Int × Int :=
  (wordAt s (remap16 s.cfg a), wordAt s (remap16 s.cfg (a + 1)))

/-- The interpolated sample at a wave address (R191, R192, R193). -/
def sampleAt (s : State) (bit16 : Bool) (addr : WaveQ) : Int :=
  let p := if bit16 then samplePair16 s (waveInt addr) else samplePair8 s (waveInt addr)
  interp p.1 p.2 (waveFrac addr)

/-- The value `FetchSample(i)` returns (R190). -/
def fetchSample (i : ChanIdx) (s : State) : Int :=
  sampleAt s (ctlBit16 (s.chan i).waveControl) (s.chan i).waveAddr

/-- The channel with its cache tag brought to the fetched block (R194). -/
def Channel.touchCache (c : Channel) : Channel :=
  { c with cacheTag := cacheTagOf c.waveAddr, cacheValid := true }

/-! ### Mix and audio tick (R197 to R202) -/

/-- The state of an audio tick on its way: the block and the two accumulators (R200). -/
structure Mixing where
  s : State
  accL : Int
  accR : Int

/-- `Mix(i, acc_l, acc_r)` (R197, R198): whatever the stopped bits and the mode say. -/
def mixVoice (i : ChanIdx) (m : Mixing) : Mixing where
  s := m.s.setChan i (m.s.chan i).touchCache
  accL := m.accL + scaleSample (fetchSample i m.s) (m.s.chan i).attenL
  accR := m.accR + scaleSample (fetchSample i m.s) (m.s.chan i).attenR

/-- One voice of an audio tick: mixed first, advanced after (R200). -/
def tickVoice (m : Mixing) (i : ChanIdx) : Mixing :=
  let x := mixVoice i m
  { x with s := advanceRamp i (advanceWave i x.s) }

/-- The channels below the voice count, ascending (R201). -/
def activeChannels (n : BitVec 6) : List ChanIdx := (List.finRange 32).filter (fun i => i.val < n.toNat)

/-- All active voices of an audio tick, before the interrupt line and the clamp (R200). -/
def mixAll (inL inR : BitVec 24) (s : State) : Mixing :=
  (activeChannels s.g.activeVoiceCount).foldl tickVoice ⟨s, inL.toInt, inR.toInt⟩

/-- `AudioTick(in_l, in_r)` (R200): the output pair and the state after it. -/
def audioTick (inL inR : BitVec 24) (s : State) : (BitVec 16 × BitVec 16) × State :=
  let m := mixAll inL inR s
  let out := (clamp16 m.accL, clamp16 m.accR)
  (out, (updateIrq m.s).emit (.audioOut out.1 out.2))

end Sys2Proof.Machine
end

