-- ==== Sys2Proof/Machine/Environment.lean ====
section
/-! DEFINITION. The meanings of the environment words (`30_encoding.md` R89): `TICK` and `WAIT`. -/

namespace Sys2Proof.Machine

open Host (Outcome)

/-- `TICK in_l, in_r` (`44_fetch_mix.md` R203). -/
def execTick (inL inR : BitVec 24) (s : State) : Outcome State Fault Refusal :=
  let t := audioTick inL inR s
  .next (t.2.ret ((t.1.2 ++ t.1.1).setWidth 48))

/-- `WAIT dt` (`40_scheduler.md` R111). -/
def execWait (us : BitVec 48) (s : State) : Outcome State Fault Refusal :=
  .next (waitUntil (s.now + us.toNat) s).done

end Sys2Proof.Machine
end

