-- ==== Sys2Proof/Machine/GlobalRegs.lean ====
section
/-! DEFINITION. The meanings of the global register file commands (`45_global.md`). -/

namespace Sys2Proof.Machine

open Host (Outcome)

/-- The mode byte that `RESET w` stores (R210, `90_conflicts.md` C2). -/
def resetMode (old m : BitVec 8) : BitVec 8 :=
  if modeRun m && modeRun old then m else modeClear21 m

/-- `RESET w` (R210): a device reset where bit 0 is 0; bits 2:1 of the stored byte zero where bit 0 is 0 or the block
was halted. -/
def execReset (w : BitVec 16) (s : State) : Outcome State Fault Refusal :=
  let m : BitVec 8 := w.extractLsb' 0 8
  let r := if modeRun m then s else deviceReset s
  .next (updateIrq (r.onG (fun g => { g with mode := resetMode s.g.mode m }))).done

/-- `GET_MODE` (R212). -/
def execGetMode (s : State) : Outcome State Fault Refusal :=
  .next (s.ret (s.g.mode.setWidth 48))

/-- `SET_VOICES n` (R213). -/
def execSetVoices (n : BitVec 6) (s : State) : Outcome State Fault Refusal :=
  .next (updateIrq (setVoiceCount n.toNat s)).done

/-- `GET_VOICES` (R214). -/
def execGetVoices (s : State) : Outcome State Fault Refusal :=
  .next (s.ret (s.g.activeVoiceCount.setWidth 48))

/-- `GET_RATE` (R215). -/
def execGetRate (s : State) : Outcome State Fault Refusal :=
  .next (s.ret (BitVec.ofNat 48 s.g.baseRate))

/-- `GET_IRQST` (R220). -/
def execGetIrqst (s : State) : Outcome State Fault Refusal :=
  .next (s.ret ((effectiveIrqStatus s.g).setWidth 48))

/-- The value `ACK_VIRQ` hands back: channel, and its wave and ramp cause where it is active (R221; log 26). -/
def ackValue (g : Globals) : BitVec 7 :=
  BitVec.ofBool (blameActive g && g.rampIrq.getLsbD g.irqChan.toNat) ++
    BitVec.ofBool (blameActive g && g.waveIrq.getLsbD g.irqChan.toNat) ++ g.irqChan

/-- `ACK_VIRQ` (R221). Where the pointer was left on a channel above a lowered voice count nothing is acknowledged
(R271, H12): DESIGN CHOICE, log 26. -/
def execAckVirq (s : State) : Outcome State Fault Refusal :=
  .next ((updateIrq (s.onG blameCleared)).ret ((ackValue s.g).setWidth 48))

/-- `MEM_ADDR a` (R222). -/
def execMemAddr (a : Addr) (s : State) : Outcome State Fault Refusal :=
  .next (s.onG (fun g => { g with memAddr := a })).done

/-- `GET_MEMADDR` (R229). -/
def execGetMemaddr (s : State) : Outcome State Fault Refusal :=
  .next (s.ret (s.g.memAddr.setWidth 48))

/-- `MEM_POKE v` (R223). -/
def execMemPoke (v : Byte) (s : State) : Outcome State Fault Refusal :=
  .next (s.memWrite s.g.memAddr v).done

/-- `MEM_PEEK` (R224). -/
def execMemPeek (s : State) : Outcome State Fault Refusal :=
  .next (s.ret ((s.memRead s.g.memAddr).setWidth 48))

/-- The timer armed, unless it runs already or the scheduler table is full (R225). -/
def startTimer (t : BitVec 1) (s : State) : State :=
  if (s.tmr t).running then s
  else
    let armed := schedAdd (evTimer t) (s.tmr t).delay (t.setWidth 32)
      (s.setTmr t { s.tmr t with running := true })
    if armed.pending (evTimer t) = none then armed.setTmr t { armed.tmr t with running := false } else armed

/-- The timer stopped and its alarm removed (R225). -/
def stopTimer (t : BitVec 1) (s : State) : State :=
  schedRemove (evTimer t) (s.setTmr t { s.tmr t with running := false })

/-- `TMR_CFG t, reload, irq, mask, run` (R225). -/
def execTmrCfg (t : BitVec 1) (reload : BitVec 8) (raiseIrq masked run : Bool) (s : State) :
    Outcome State Fault Refusal :=
  let set := s.setTmr t
    { s.tmr t with reload := reload, raiseIrq := raiseIrq, masked := masked, delay := timerDelay s.cfg t reload }
  .next (updateIrq (if run then startTimer t set else stopTimer t set)).done

/-- `TMR_ACK mask` (R227). -/
def execTmrAck (mask : BitVec 2) (s : State) : Outcome State Fault Refusal :=
  let acked :=
    { s with
      tmr0 := { s.tmr0 with reached := s.tmr0.reached && !mask.getLsbD 0 }
      tmr1 := { s.tmr1 with reached := s.tmr1.reached && !mask.getLsbD 1 }
      g := { s.g with timerIrq := clearTimerCauses mask s.g.timerIrq } }
  .next (updateIrq acked).done

/-- The value `GET_TMR` hands back (R228). -/
def timerValue (x : Timer) : Imm :=
  x.delay ++ 0#4 ++ BitVec.ofBool x.reached ++ BitVec.ofBool x.running ++ BitVec.ofBool x.masked ++
    BitVec.ofBool x.raiseIrq ++ x.reload

/-- `GET_TMR t` (R228). -/
def execGetTmr (t : BitVec 1) (s : State) : Outcome State Fault Refusal :=
  .next (s.ret (timerValue (s.tmr t)))

end Sys2Proof.Machine
end

