-- ==== Sys2Proof/Machine/SchedulerCmds.lean ====
section
/-! DEFINITION. The meanings of the scheduler commands (`40_scheduler.md`). -/

namespace Sys2Proof.Machine

open Host (Outcome)

/-- `EV_ADD event, delay_us, value` (R104); an event that is not external makes the command undefined (R85; log 11). -/
def execEvAdd (e : BitVec 8) (delayUs : BitVec 32) (value : BitVec 16) (s : State) : Outcome State Fault Refusal :=
  if s.cfg.isExternal e.toNat then .next (schedAdd e.toNat delayUs (value.setWidth 32) s).done
  else .next (undefinedCommand s)

/-- `EV_REMOVE event` (R105); an event that is not external makes the command undefined (R85; log 11). -/
def execEvRemove (e : BitVec 8) (s : State) : Outcome State Fault Refusal :=
  if s.cfg.isExternal e.toNat then .next (schedRemove e.toNat s).done
  else .next (undefinedCommand s)

/-- `GET_EV event` (R114). -/
def execGetEv (e : BitVec 8) (s : State) : Outcome State Fault Refusal :=
  if s.cfg.isEvent e.toNat then .next (s.ret (if (s.pending e.toNat).isSome then 1 else 0))
  else .next (undefinedCommand s)

end Sys2Proof.Machine
end

