-- ==== Sys2Proof/Machine/Dispatch.lean ====
section
/-! DEFINITION. The meaning of every command: one arm per constructor of Instr, one direct call each. -/

namespace Sys2Proof.Machine

def exec (i : Instr) (s : State) : Host.Outcome State Fault Refusal :=
  match i with
  | .selCh n => Sys2Proof.Machine.execSelCh n s
  | .setWctrl v => Sys2Proof.Machine.execSetWctrl v s
  | .setWfreq f => Sys2Proof.Machine.execSetWfreq f s
  | .setWstart a => Sys2Proof.Machine.execSetWstart a s
  | .setWend a => Sys2Proof.Machine.execSetWend a s
  | .setWaddr a => Sys2Proof.Machine.execSetWaddr a s
  | .setRctrl v => Sys2Proof.Machine.execSetRctrl v s
  | .setRrate r => Sys2Proof.Machine.execSetRrate r s
  | .setRstart v => Sys2Proof.Machine.execSetRstart v s
  | .setRend v => Sys2Proof.Machine.execSetRend v s
  | .setRvol v => Sys2Proof.Machine.execSetRvol v s
  | .setPan p => Sys2Proof.Machine.execSetPan p s
  | .getCh => Sys2Proof.Machine.execGetCh s
  | .getWctrl => Sys2Proof.Machine.execGetWctrl s
  | .getWfreq => Sys2Proof.Machine.execGetWfreq s
  | .getWstart => Sys2Proof.Machine.execGetWstart s
  | .getWend => Sys2Proof.Machine.execGetWend s
  | .getWaddr => Sys2Proof.Machine.execGetWaddr s
  | .getRctrl => Sys2Proof.Machine.execGetRctrl s
  | .getRrate => Sys2Proof.Machine.execGetRrate s
  | .getRstart => Sys2Proof.Machine.execGetRstart s
  | .getRend => Sys2Proof.Machine.execGetRend s
  | .getRvol => Sys2Proof.Machine.execGetRvol s
  | .getPan => Sys2Proof.Machine.execGetPan s
  | .reset w => Sys2Proof.Machine.execReset w s
  | .getMode => Sys2Proof.Machine.execGetMode s
  | .setVoices n => Sys2Proof.Machine.execSetVoices n s
  | .getVoices => Sys2Proof.Machine.execGetVoices s
  | .getRate => Sys2Proof.Machine.execGetRate s
  | .getIrqst => Sys2Proof.Machine.execGetIrqst s
  | .ackVirq => Sys2Proof.Machine.execAckVirq s
  | .memAddr a => Sys2Proof.Machine.execMemAddr a s
  | .getMemaddr => Sys2Proof.Machine.execGetMemaddr s
  | .memPoke v => Sys2Proof.Machine.execMemPoke v s
  | .memPeek => Sys2Proof.Machine.execMemPeek s
  | .tmrCfg t reload raiseIrq masked run => Sys2Proof.Machine.execTmrCfg t reload raiseIrq masked run s
  | .tmrAck mask => Sys2Proof.Machine.execTmrAck mask s
  | .getTmr t => Sys2Proof.Machine.execGetTmr t s
  | .dmaSetup auto w16 total => Sys2Proof.Machine.execDmaSetup auto w16 total s
  | .dmaInterval us => Sys2Proof.Machine.execDmaInterval us s
  | .dmaAddr a => Sys2Proof.Machine.execDmaAddr a s
  | .getDmaaddr => Sys2Proof.Machine.execGetDmaaddr s
  | .setDmactl v => Sys2Proof.Machine.execSetDmactl v s
  | .getDmactl => Sys2Proof.Machine.execGetDmactl s
  | .fifoPush b => Sys2Proof.Machine.execFifoPush b s
  | .fifoPop => Sys2Proof.Machine.execFifoPop s
  | .getFifo => Sys2Proof.Machine.execGetFifo s
  | .evAdd e delayUs value => Sys2Proof.Machine.execEvAdd e delayUs value s
  | .evRemove e => Sys2Proof.Machine.execEvRemove e s
  | .getEv e => Sys2Proof.Machine.execGetEv e s
  | .tick inL inR => Sys2Proof.Machine.execTick inL inR s
  | .wait us => Sys2Proof.Machine.execWait us s

end Sys2Proof.Machine
end

