-- ==== Sys2Proof/Machine/Agents.lean ====
section
/-! DEFINITION. What serving one stimulus does: a word is decoded and executed, a step of another agent is taken
(`00_scope.md` R5, `20_memory.md` R70, R76). -/

namespace Sys2Proof.Machine

open Host (Outcome)

/-- A word of a script stream (`30_encoding.md` R89): the decoded command, or an undefined command (R84). -/
def serveWord (w : CmdWord) (s : State) : Outcome State Fault Refusal :=
  match decode w with
  | some i => exec i s
  | none => .next (undefinedCommand s)

/-- A word on the hardware command port, which treats the environment words as undefined (R89, R84). -/
def servePortWord (w : CmdWord) (s : State) : Outcome State Fault Refusal :=
  match decode w with
  | some i => if i.format = .env then .next (undefinedCommand s) else exec i s
  | none => .next (undefinedCommand s)

/-- One stimulus served. -/
def serve (x : Stimulus) (s : State) : Outcome State Fault Refusal :=
  match x with
  | .word w => serveWord w s
  | .portWord w => servePortWord w s
  | .audioTick inL inR => .next (audioTick inL inR s).2
  | .timePasses dt => .next { s with now := s.now + dt }
  | .alarmExpire id => .next (alarmExpire id s)
  | .alarmDispatch => .next (alarmDispatch s)
  | .clientCall call => .next (clientCall call s)
  | .waitUntil target => .next (waitUntil (max s.now target) s)

/-- The state at the start of a step: the stimulus taken from the inbox, the outputs of the last step gone (log 2). -/
def State.begin (s : State) (rest : List Stimulus) : State :=
  { s with inbox := rest, result := none, emitted := [] }

/-- A word presented before everything in the inbox. -/
def State.present (s : State) (w : CmdWord) : State := { s with inbox := .word w :: s.inbox }

/-- One step: the next stimulus served, or nothing where none is presented (log 1). -/
def serveNext (s : State) : Outcome State Fault Refusal :=
  match s.inbox with
  | [] => .next s
  | x :: rest => serve x (s.begin rest)

end Sys2Proof.Machine
end

