-- ==== Sys2Proof/Machine/Step.lean ====
section
/-! DEFINITION. One step of the machine, and the placing of a word where the next step takes it. -/

namespace Sys2Proof.Machine

/-- One step: the next stimulus of the inbox is served (`20_memory.md` R70, R76). -/
def step (s : State) : Host.Outcome State Fault Refusal := serveNext s

/-- The opcode-table word `w` presented as the next word of the stream (log 1). -/
def State.withFetchWord (s : State) (nbits w : Nat) : State := s.present (tableWord nbits w)

end Sys2Proof.Machine
end

