-- ==== Sys2Proof/Safety.lean ====
section
/-! DEFINITION. The terms the claims use: the invariants of `10_state.md` R46 and `40_scheduler.md` R113, the frame
predicates (what a command leaves as it was), and short runs of words. -/

namespace Sys2Proof.Machine

open Host (Outcome)

/-! ### Invariants -/

/-- A channel agrees with its derived fields: I2, I7 and I8 of R46, for voice count `n`. -/
structure Channel.Ok (c : Config) (n : Nat) (ch : Channel) : Prop where
  /-- I2: `ramp_vol < MAX_RAMP`. -/
  rampVol_lt : ch.rampVol.toNat < c.maxRamp
  /-- I7, left. -/
  attenL_eq : ch.attenL = attenLeft c ch.panPosition ch.rampVol
  /-- I7, right. -/
  attenR_eq : ch.attenR = attenRight c ch.panPosition ch.rampVol
  /-- I8, wave. -/
  waveIncrement_eq : ch.waveIncrement = waveStep c ch.waveFreq n
  /-- I8, ramp. -/
  rampIncrement_eq : ch.rampIncrement = rampStep c ch.rampRate n

/-- The register file: I1 and I6 of R46, the base rate of R32, and the blame pointer of R219. -/
structure Globals.Ok (c : Config) (g : Globals) : Prop where
  /-- I1, lower bound. -/
  voices_ge : 14 ≤ g.activeVoiceCount.toNat
  /-- I1, upper bound. -/
  voices_le : g.activeVoiceCount.toNat ≤ 32
  /-- R32: `base_rate` is `RATE_TABLE[active_voice_count - 1]`. -/
  baseRate_eq : g.baseRate = rateOf c g.activeVoiceCount.toNat
  /-- I6: the line is asserted iff the effective status is not zero. -/
  irqLine_eq : g.irqLine = (effectiveIrqStatus g != 0)
  /-- R219: while a voice cause is pending the pointer stands on a channel that has one. -/
  blame_pending : voicePending g ≠ 0 → (voicePending g).getLsbD g.irqChan.toNat = true

/-- The scheduler table: I3 and I4 of R46, and R113. -/
structure State.SchedOk (s : State) : Prop where
  /-- Ids are unique, and the table is held in their order. -/
  ids_rising : s.alarms.Pairwise (fun a b => a.id < b.id)
  /-- R102: ids handed out are below the next one. -/
  ids_fresh : ∀ a ∈ s.alarms, a.id < s.nextAlarmId
  /-- I4. -/
  room : s.alarms.length ≤ s.cfg.schedCapacity
  /-- R113 (b), (c): an entry that has not expired is the pending alarm of its event. -/
  unexpired_pending : ∀ a ∈ s.alarms, a.expired = false → s.pending a.ev = some a.id
  /-- A pending alarm is an entry of the table for that event. -/
  pending_entry : ∀ e id, s.pending e = some id → ∃ a ∈ s.alarms, a.id = id ∧ a.ev = e
  /-- R107: an entry expires only when it is due. -/
  expired_due : ∀ a ∈ s.alarms, a.expired = true → a.due ≤ s.now
  /-- R101: the event ids are the closed set. -/
  events_length : s.events.length = 3 + s.cfg.extEvents

/-- The DMA engine: I9 and I10 of R46, with the converse of I10 and the counts of R121 and R122. -/
structure State.DmaOk (s : State) : Prop where
  /-- I9. -/
  xfer_idle : s.dma.xfer = .idle
  /-- I10 and its converse. -/
  running_iff : s.dma.running = true ↔ s.pending evDma ≠ none
  /-- A running engine has a period that a handler can return (R121). -/
  interval_ne : s.dma.running = true → s.dma.intervalUs ≠ 0
  /-- A running engine has units left (R121, R122). -/
  remaining_ne : s.dma.running = true → s.dma.remaining ≠ 0 ∧ s.dma.total ≠ 0

/-- A hardware timer and its event (R225, R226). -/
structure State.TimerOk (s : State) (t : BitVec 1) : Prop where
  running_iff : (s.tmr t).running = true ↔ s.pending (evTimer t) ≠ none
  delay_ne : (s.tmr t).running = true → (s.tmr t).delay ≠ 0
  value_eq : s.pending (evTimer t) ≠ none → (s.event (evTimer t)).value = t.setWidth 32

/-- The audio FIFO: I5 of R46 and the state rules of `41_dma.md` R132. -/
structure Fifo.Ok (c : Config) (f : Fifo) : Prop where
  write_lt : f.writeIndex < c.fifoCapacity
  read_lt : f.readIndex < c.fifoCapacity
  /-- I5: `count = (write_index - read_index) mod FIFO_CAPACITY`. -/
  count_eq : f.count = (f.writeIndex + c.fifoCapacity - f.readIndex) % c.fifoCapacity
  /-- R134: running implies a byte to pop. -/
  running_count : f.state = .running → 1 ≤ f.count
  /-- R132: stopped implies the threshold not reached. -/
  stopped_count : f.state = .stopped → f.count < c.fifoThreshold
  buf_wf : Memory.WF c.fifoFill c.fifoCapacity f.buf

/-- The invariants of R46, with those they rest on. -/
structure State.Inv (s : State) : Prop where
  cfg_wf : s.cfg.WF
  chans_ok : ∀ i, (s.chan i).Ok s.cfg s.g.activeVoiceCount.toNat
  g_ok : s.g.Ok s.cfg
  sched_ok : s.SchedOk
  dma_ok : s.DmaOk
  timer_ok : ∀ t, s.TimerOk t
  fifo_ok : s.fifo.Ok s.cfg
  mem_wf : Memory.WF s.cfg.memFill (2 ^ s.cfg.memAddrBits) s.mem

/-! ### Frames: what a command leaves as it was -/

/-- Every channel register is as before. -/
def SameChans (s t : State) : Prop := ∀ i, t.chan i = s.chan i

/-- Every register of every other channel is as before. -/
def SameChansBut (i : ChanIdx) (s t : State) : Prop := ∀ j, j ≠ i → t.chan j = s.chan j

/-- Both timers are as before. -/
def SameTimers (s t : State) : Prop := t.tmr0 = s.tmr0 ∧ t.tmr1 = s.tmr1

/-- The clock, the scheduler table, the next id and every event are as before. -/
def SameSched (s t : State) : Prop :=
  t.now = s.now ∧ t.alarms = s.alarms ∧ t.nextAlarmId = s.nextAlarmId ∧ ∀ e, t.event e = s.event e

/-- Every byte of device memory reads as before. -/
def SameMem (s t : State) : Prop := ∀ a, t.byteAt a = s.byteAt a

/-- What no command but `WAIT` writes: the configuration, the stimuli and the environment's answers are as before. -/
def SameOutside (s t : State) : Prop := t.cfg = s.cfg ∧ t.inbox = s.inbox ∧ t.env = s.env

/-- Everything but the outputs is as before. -/
def SameState (s t : State) : Prop :=
  SameOutside s t ∧ SameChans s t ∧ t.g = s.g ∧ SameTimers s t ∧ t.dma = s.dma ∧ SameSched s t ∧ t.fifo = s.fifo ∧
    SameMem s t

/-- Everything but the outputs and the register file is as before. -/
def SameButG (s t : State) : Prop :=
  SameOutside s t ∧ SameChans s t ∧ SameTimers s t ∧ t.dma = s.dma ∧ SameSched s t ∧ t.fifo = s.fifo ∧ SameMem s t

/-- Everything but the outputs and channel `i` is as before. -/
def SameButChan (i : ChanIdx) (s t : State) : Prop :=
  SameOutside s t ∧ SameChansBut i s t ∧ t.g = s.g ∧ SameTimers s t ∧ t.dma = s.dma ∧ SameSched s t ∧
    t.fifo = s.fifo ∧ SameMem s t

/-- The command completed, handed nothing back and emitted nothing. -/
def Silent (s t : State) : Prop := t.result = none ∧ t.emitted = s.emitted

/-- The command completed, handed `v` back and emitted nothing. -/
def HandsBack (v : Imm) (s t : State) : Prop := t.result = some v ∧ t.emitted = s.emitted

/-! ### Short runs -/

/-- The words of a script served one after another, from a state. -/
def runWords : List CmdWord → State → Outcome State Fault Refusal
  | [], s => .next s
  | w :: l, s =>
    match serveWord w s with
    | .next t => runWords l t
    | .fault r => .fault r
    | .refused r => .refused r

/-- The command word with opcode `op` and value operand `imm`, `arg` zero. -/
def immWord (op : BitVec 8) (imm : Imm) : CmdWord := op ++ 0#8 ++ imm

/-- What a read word hands back right after a write word. -/
def readBack (opW opR : BitVec 8) (imm : Imm) (s : State) : Option Imm :=
  match runWords [immWord opW imm, immWord opR 0] s with
  | .next t => t.result
  | _ => none

/-- The table entries that stay when event `e` is removed: all but its pending alarm where that has not expired
(`40_scheduler.md` R103). -/
def keptAlarms (e : Nat) (s : State) : List Alarm :=
  s.alarms.filter (fun a => !(decide (s.pending e = some a.id) && !a.expired))

/-- `v` read as a two's complement number of `w` bits (`00_scope.md` R10). -/
def signedValue (w v : Nat) : Int := if 2 * v < 2 ^ w then v else (v : Int) - 2 ^ w

/-- The byte address of sample `k`, with banks of `2^bank` bytes: the bank kept, the offset in it doubled
(`20_memory.md` R66). -/
def remapIndex (bank k : Nat) : Nat := k / 2 ^ bank * 2 ^ bank + 2 * (k % 2 ^ (bank - 1))

/-- The byte of device memory that a 24-bit address reaches, as a number (`20_memory.md` R65). -/
def byteNat (s : State) (a : Nat) : Nat := (s.byteAt (a % 2 ^ 24 % 2 ^ s.cfg.memAddrBits)).toNat

/-- Every event but `e` is as before. -/
def SameEventsBut (e : Nat) (s t : State) : Prop := ∀ k, k ≠ e → t.event k = s.event k

/-- The state with every field zero and every table empty (`70_reset_and_hazards.md` R260). -/
def zeroState (c : Config) : State where
  cfg := c
  chans := Vector.replicate 32
    { waveStart := 0, waveEnd := 0, waveAddr := 0, waveFreq := 0, waveIncrement := 0, waveControl := 0
      rampStart := 0, rampEnd := 0, rampVol := 0, rampRate := 0, rampIncrement := 0, rampControl := 0
      panPosition := 0, attenL := 0, attenR := 0, cacheValid := false, cacheTag := 0 }
  g := { selChannel := 0, mode := 0, activeVoiceCount := 0, baseRate := 0, waveIrq := 0, rampIrq := 0, timerIrq := 0
         irqChan := 0, irqLine := false, memAddr := 0, dmaControl := 0, dmaAddr := 0, dmaCfgTotal := 0
         dmaCfgUnit := .one, dmaCfgAuto := false, dmaCfgInterval := 0 }
  tmr0 := bootTimer
  tmr1 := bootTimer
  dma := { remaining := 0, total := 0, bytesPerUnit := .one, intervalUs := 0, running := false, autoInit := false
           xfer := .idle }
  now := 0
  alarms := []
  nextAlarmId := 0
  events := List.replicate (3 + c.extEvents) ⟨none, 0⟩
  fifo := bootFifo
  mem := []
  env := ⟨[], [], 0⟩
  inbox := []
  result := none
  emitted := []

/-- Late fires of one alarm (`40_scheduler.md` R110): for each entry of the list, that many microseconds pass, the
alarm expires and is dispatched. -/
def lateFires (id : Nat) : List Nat → State → State
  | [], s => s
  | dt :: l, s => lateFires id l (alarmDispatch (alarmExpire id { s with now := s.now + dt }))

/-- The bytes of the audio FIFO in the order they will be popped. -/
def Fifo.contents (c : Config) (f : Fifo) : List Byte :=
  (List.range f.count).map (fun k => Memory.read c.fifoFill f.buf ((f.readIndex + k) % c.fifoCapacity))

end Sys2Proof.Machine
end

