-- ==== Sys2Proof/Certificates/Slice0/Obligations.lean ====
section
/-! DEFINITION. The statements for the provers, one `def Obligations.<Name> : Prop` each. -/

open Sys2Proof Sys2Proof.Machine

/-! ### Encoding (`30_encoding.md`) -/

/-- R80, R81, R83: the encoding of a command decodes to that command, with every operand at every value. -/
def Obligations.DecodeOfEncodeIsTheCommand : Prop :=
  ∀ i : Instr, decode (encode i) = some i

/-- R81: the words of a command are those that agree with its encoding on the bits it uses; the bits it does not use
change nothing. -/
def Obligations.AWordDecodesByItsUsedBitsAlone : Prop :=
  ∀ (w : CmdWord) (i : Instr), decode w = some i ↔ w &&& i.usedBits = encode i

/-- R83, R84: the decoder refuses exactly the words whose opcode is not in the opcode map. -/
def Obligations.UndefinedOpcodesAreThoseOutsideTheMap : Prop :=
  ∀ w : CmdWord, decode w = none ↔ opField w ∉
    [0x01#8, 0x02#8, 0x03#8, 0x04#8, 0x05#8, 0x06#8, 0x07#8, 0x08#8, 0x09#8, 0x0A#8, 0x0B#8, 0x0C#8,
      0x21#8, 0x22#8, 0x23#8, 0x24#8, 0x25#8, 0x26#8, 0x27#8, 0x28#8, 0x29#8, 0x2A#8, 0x2B#8, 0x2C#8,
      0x40#8, 0x41#8, 0x42#8, 0x43#8, 0x44#8, 0x45#8, 0x46#8, 0x47#8, 0x48#8, 0x49#8, 0x4A#8, 0x4B#8, 0x4C#8, 0x4D#8,
      0x60#8, 0x61#8, 0x62#8, 0x63#8, 0x64#8, 0x65#8, 0x66#8, 0x67#8, 0x68#8, 0x80#8, 0x81#8, 0x82#8, 0xA0#8, 0xA1#8]

/-- The words of `95_test_vectors.md` sections S3, S5, S8, 2.7, 2.8 and 2.9, one or more of each family. -/
def Obligations.WordsOfTheTestVectorsDecode : Prop :=
  decode 0x01FF00000000FFE3 = some (.selCh 3) ∧
  decode 0x0500000000019000 = some (.setWend 0x19000) ∧
  decode 0x2155AAAAAAAAAAAA = some .getCh ∧
  decode 0x4200000000000040 = some (.setVoices 0) ∧
  decode 0x4B010000000005FE = some (.tmrCfg 1 0xFE true false true) ∧
  decode 0x6003000000000002 = some (.dmaSetup true true 2) ∧
  decode 0x6600000000000010 = some (.fifoPush 0x10) ∧
  decode 0x80030009000003E8 = some (.evAdd 3 1000 9) ∧
  decode 0xA000FFFFFB0004D2 = some (.tick 0x0004D2 0xFFFFFB) ∧
  decode 0xA1000000000007D0 = some (.wait 2000) ∧
  decode 0x0D00000000000001 = none

/-! ### Steps of the agents (`00_scope.md` R5, `20_memory.md` R76) -/

/-- R76, R89: a step serves the next word: the decoded command is executed with the word taken from the stream; on the
hardware command port the environment words are undefined; a table word that is presented runs first. -/
def Obligations.StepRunsTheDecodedCommand : Prop :=
  ∀ (s : State) (w : CmdWord) (rest : List Stimulus) (i : Instr), decode w = some i →
    (s.inbox = .word w :: rest → step s = exec i (s.begin rest)) ∧
    (s.inbox = .portWord w :: rest → i.format ≠ .env → step s = exec i (s.begin rest)) ∧
    (s.inbox = .portWord w :: rest → i.format = .env → step s = .next (undefinedCommand (s.begin rest))) ∧
    (∀ nbits k : Nat, tableWord nbits k = w → step (s.withFetchWord nbits k) = exec i (s.begin s.inbox))

/-- R84: an undefined word, on either port, changes no state and hands back `READ_SENTINEL`. -/
def Obligations.UndefinedWordsChangeNoStateAndReadTheSentinel : Prop :=
  ∀ (s : State) (w : CmdWord) (rest : List Stimulus), decode w = none →
    (s.inbox = .word w :: rest ∨ s.inbox = .portWord w :: rest) →
    ∃ t, step s = .next t ∧ SameState (s.begin rest) t ∧ t.result = some s.cfg.readSentinel

/-- R106 to R108, R200: the steps of the other agents. R3 (f), R101, R102, R103: a call on the scheduler client port arms
or removes an external event; that a call on any other id changes nothing is the model's deduction (log 8). The model's
own choices: a step with nothing presented changes nothing (log 1), the rest of a wait is the wait that ends at its
target (log 9). -/
def Obligations.AgentStepsDoWhatTheirRulesSay : Prop :=
  ∀ (s : State) (rest : List Stimulus),
    (s.inbox = [] → step s = .next s) ∧
    (∀ dt : Nat, s.inbox = .timePasses dt :: rest → step s = .next { s.begin rest with now := s.now + dt }) ∧
    (∀ id : Nat, s.inbox = .alarmExpire id :: rest →
      step s = .next { s.begin rest with
        alarms := s.alarms.map (fun a =>
          if a.id = id ∧ a.expired = false ∧ a.due ≤ s.now then { a with expired := true } else a) }) ∧
    (s.inbox = .alarmDispatch :: rest → step s = .next (alarmDispatch (s.begin rest))) ∧
    (∀ inL inR, s.inbox = .audioTick inL inR :: rest →
      ∃ u, exec (.tick inL inR) (s.begin rest) = .next u ∧ step s = .next u.done) ∧
    (∀ e d v, s.inbox = .clientCall (.add e d v) :: rest →
      let b := s.begin rest
      ∃ t, step s = .next t ∧
        (e < 3 ∨ 3 + s.cfg.extEvents ≤ e → t = b) ∧
        (3 ≤ e → e < 3 + s.cfg.extEvents → (keptAlarms e s).length < s.cfg.schedCapacity →
          t = { b with alarms := t.alarms, events := t.events, nextAlarmId := s.nextAlarmId + 1 } ∧
          t.alarms = keptAlarms e s ++ [⟨s.nextAlarmId, e, s.now + d.toNat, false⟩] ∧
          t.event e = ⟨some s.nextAlarmId, v⟩ ∧ SameEventsBut e s t) ∧
        (3 ≤ e → e < 3 + s.cfg.extEvents → s.cfg.schedCapacity ≤ (keptAlarms e s).length →
          t = { b with alarms := keptAlarms e s, events := t.events, emitted := [.log .schedulerTableFull] } ∧
          t.event e = { s.event e with pending := none } ∧ SameEventsBut e s t)) ∧
    (∀ e, s.inbox = .clientCall (.remove e) :: rest →
      let b := s.begin rest
      ∃ t, step s = .next t ∧
        (e < 3 ∨ 3 + s.cfg.extEvents ≤ e → t = b) ∧
        (3 ≤ e → e < 3 + s.cfg.extEvents →
          t = { b with alarms := keptAlarms e s, events := t.events } ∧
          t.event e = { s.event e with pending := none } ∧ SameEventsBut e s t)) ∧
    (∀ target, s.inbox = .waitUntil target :: rest → target < s.now + 2 ^ 48 →
      step s = exec (.wait (BitVec.ofNat 48 (target - s.now))) (s.begin rest))

/-- R240: "every command, every audio tick and every dispatch completes". -/
def Obligations.EveryStepCompletes : Prop :=
  (∀ (i : Instr) (s : State), ∃ t, exec i s = .next t) ∧ ∀ s : State, ∃ t, step s = .next t

/-- R83 (column "dir"), R13: every defined command completes; a write hands nothing back, a read hands back a value. -/
def Obligations.WritesHandNothingBackAndReadsHandBackAValue : Prop :=
  ∀ (i : Instr) (s : State), i.wf s.cfg = true →
    ∃ t, exec i s = .next t ∧ (i.direction = .write → t.result = none) ∧ (i.direction = .read → t.result ≠ none)

/-- R9: "Parameters never change while the model runs". -/
def Obligations.NoStepWritesTheConfiguration : Prop :=
  ∀ s t : State, step s = .next t → t.cfg = s.cfg

/-! ### Channel registers (`42_channel_regs.md`) -/

/-- R143, R148, R150, R153, R155, R159, R161, R140: each of these seven writes stores its operand in its register of the
selected channel and leaves everything else as it was. -/
def Obligations.PlainChannelWritesStoreOnlyTheirRegister : Prop :=
  ∀ s : State,
    (∀ v, ∃ t, exec (.setWctrl v) s = .next t ∧ Silent s t ∧ SameButChan s.sel s t ∧
      t.chan s.sel = { s.chan s.sel with waveControl := v }) ∧
    (∀ a, ∃ t, exec (.setWstart a) s = .next t ∧ Silent s t ∧ SameButChan s.sel s t ∧
      t.chan s.sel = { s.chan s.sel with waveStart := a }) ∧
    (∀ a, ∃ t, exec (.setWend a) s = .next t ∧ Silent s t ∧ SameButChan s.sel s t ∧
      t.chan s.sel = { s.chan s.sel with waveEnd := a }) ∧
    (∀ a, ∃ t, exec (.setWaddr a) s = .next t ∧ Silent s t ∧ SameButChan s.sel s t ∧
      t.chan s.sel = { s.chan s.sel with waveAddr := a }) ∧
    (∀ v, ∃ t, exec (.setRctrl v) s = .next t ∧ Silent s t ∧ SameButChan s.sel s t ∧
      t.chan s.sel = { s.chan s.sel with rampControl := v }) ∧
    (∀ v, ∃ t, exec (.setRstart v) s = .next t ∧ Silent s t ∧ SameButChan s.sel s t ∧
      t.chan s.sel = { s.chan s.sel with rampStart := v }) ∧
    (∀ v, ∃ t, exec (.setRend v) s = .next t ∧ Silent s t ∧ SameButChan s.sel s t ∧
      t.chan s.sel = { s.chan s.sel with rampEnd := v })

/-- R145, R157, R140: a rate write stores the raw rate and the increment that `WaveStep` or `RampStep` gives for the
voice count, and leaves everything else as it was. -/
def Obligations.RateWritesStoreTheRateAndItsIncrement : Prop :=
  ∀ s : State,
    (∀ f, ∃ t, exec (.setWfreq f) s = .next t ∧ Silent s t ∧ SameButChan s.sel s t ∧
      t.chan s.sel =
        { s.chan s.sel with waveFreq := f, waveIncrement := waveStep s.cfg f s.g.activeVoiceCount.toNat }) ∧
    (∀ r, ∃ t, exec (.setRrate r) s = .next t ∧ Silent s t ∧ SameButChan s.sel s t ∧
      t.chan s.sel =
        { s.chan s.sel with rampRate := r, rampIncrement := rampStep s.cfg r s.g.activeVoiceCount.toNat })

/-- R163, R165, R195, R140: `SET_RVOL` stores the smaller of its operand and `MAX_RAMP - 1`, `SET_PAN` its operand; both
recompute the two attenuation factors from the new pan and level, and leave everything else as it was. -/
def Obligations.VolumeAndPanWritesRecomputeTheAttenuation : Prop :=
  ∀ s : State, s.cfg.WF →
    (∀ v : RampQ, ∃ t, exec (.setRvol v) s = .next t ∧ Silent s t ∧ SameButChan s.sel s t ∧
      (t.chan s.sel).rampVol.toNat = min v.toNat (s.cfg.maxRamp - 1) ∧
      t.chan s.sel =
        { s.chan s.sel with
          rampVol := (t.chan s.sel).rampVol
          attenL := attenLeft s.cfg (s.chan s.sel).panPosition (t.chan s.sel).rampVol
          attenR := attenRight s.cfg (s.chan s.sel).panPosition (t.chan s.sel).rampVol }) ∧
    (∀ p : BitVec 4, ∃ t, exec (.setPan p) s = .next t ∧ Silent s t ∧ SameButChan s.sel s t ∧
      t.chan s.sel =
        { s.chan s.sel with
          panPosition := p
          attenL := attenLeft s.cfg p (s.chan s.sel).rampVol
          attenR := attenRight s.cfg p (s.chan s.sel).rampVol })

/-- R144, R146, R149, R151, R154, R156, R158, R160, R162, R164, R166: each read hands back its register of the selected
channel, zero-extended, and changes nothing. -/
def Obligations.ChannelReadsHandBackTheirRegister : Prop :=
  ∀ s : State,
    (∃ t, exec .getWctrl s = .next t ∧ HandsBack ((s.chan s.sel).waveControl.setWidth 48) s t ∧ SameState s t) ∧
    (∃ t, exec .getWfreq s = .next t ∧ HandsBack ((s.chan s.sel).waveFreq.setWidth 48) s t ∧ SameState s t) ∧
    (∃ t, exec .getWstart s = .next t ∧ HandsBack ((s.chan s.sel).waveStart.setWidth 48) s t ∧ SameState s t) ∧
    (∃ t, exec .getWend s = .next t ∧ HandsBack ((s.chan s.sel).waveEnd.setWidth 48) s t ∧ SameState s t) ∧
    (∃ t, exec .getWaddr s = .next t ∧ HandsBack ((s.chan s.sel).waveAddr.setWidth 48) s t ∧ SameState s t) ∧
    (∃ t, exec .getRctrl s = .next t ∧ HandsBack ((s.chan s.sel).rampControl.setWidth 48) s t ∧ SameState s t) ∧
    (∃ t, exec .getRrate s = .next t ∧ HandsBack ((s.chan s.sel).rampRate.setWidth 48) s t ∧ SameState s t) ∧
    (∃ t, exec .getRstart s = .next t ∧ HandsBack ((s.chan s.sel).rampStart.setWidth 48) s t ∧ SameState s t) ∧
    (∃ t, exec .getRend s = .next t ∧ HandsBack ((s.chan s.sel).rampEnd.setWidth 48) s t ∧ SameState s t) ∧
    (∃ t, exec .getRvol s = .next t ∧ HandsBack ((s.chan s.sel).rampVol.setWidth 48) s t ∧ SameState s t) ∧
    (∃ t, exec .getPan s = .next t ∧ HandsBack ((s.chan s.sel).panPosition.setWidth 48) s t ∧ SameState s t)

/-- R167, with the words of R83: a written register reads back truncated to its width, but for `SET_RVOL` at or above
`MAX_RAMP`; the address registers of R222, R229 and R128, R131 read back likewise. -/
def Obligations.WrittenRegistersReadBack : Prop :=
  ∀ (s : State) (imm : Imm),
    readBack 0x01 0x21 imm s = some (imm &&& lowImm 5) ∧
    readBack 0x02 0x22 imm s = some (imm &&& lowImm 8) ∧
    readBack 0x03 0x23 imm s = some (imm &&& lowImm 16) ∧
    readBack 0x04 0x24 imm s = some (imm &&& lowImm 34) ∧
    readBack 0x05 0x25 imm s = some (imm &&& lowImm 34) ∧
    readBack 0x06 0x26 imm s = some (imm &&& lowImm 34) ∧
    readBack 0x07 0x27 imm s = some (imm &&& lowImm 8) ∧
    readBack 0x08 0x28 imm s = some (imm &&& lowImm 8) ∧
    readBack 0x09 0x29 imm s = some (imm &&& lowImm 24) ∧
    readBack 0x0A 0x2A imm s = some (imm &&& lowImm 24) ∧
    (s.cfg.WF → readBack 0x0B 0x2B imm s =
      some (if (imm &&& lowImm 24).toNat < s.cfg.maxRamp then imm &&& lowImm 24
        else BitVec.ofNat 48 (s.cfg.maxRamp - 1))) ∧
    readBack 0x0C 0x2C imm s = some (imm &&& lowImm 4) ∧
    readBack 0x47 0x48 imm s = some (imm &&& lowImm 24) ∧
    readBack 0x62 0x63 imm s = some (imm &&& lowImm 24)

/-- R147, R152: the default step functions, for any rate table and voice count; at the base rate they give the raw
frequency and `RampBase`. -/
def Obligations.DefaultStepFunctionsScaleByTheRate : Prop :=
  ∀ (c : Config) (n : Nat), c.WF → 1 ≤ n → n ≤ 32 →
    (c.waveStepCurve = .standard → ∀ f : BitVec 16,
      (c.fixedRateFlag = false → waveStep c f n = f.setWidth 34) ∧
      (c.fixedRateFlag = true → (waveStep c f n).toNat = f.toNat * rateOf c n / c.fixedRateHz % 2 ^ 34)) ∧
    (c.rampStepCurve = .standard → ∀ r : BitVec 8,
      (c.fixedRateFlag = false → (rampStep c r n).toNat = r.toNat % 64 * 1024 / 8 ^ (r.toNat / 64)) ∧
      (c.fixedRateFlag = true →
        (rampStep c r n).toNat = r.toNat % 64 * 1024 / 8 ^ (r.toNat / 64) * rateOf c n / c.fixedRateHz % 2 ^ 24))

/-! ### Wave and ramp generators (`43_wave_ramp.md`) -/

/-- R171, R176: `AdvanceWave(i)` on naturals modulo `2^34`: nothing while stopped, the step, and the seven rows of the
outcome table; the cause flag of channel `i` is set iff a running voice hits a boundary with `IRQEN`, and everything
else is as it was. -/
def Obligations.AdvanceWaveFollowsTheOutcomeTable : Prop :=
  ∀ (i : ChanIdx) (s : State),
    let c := s.chan i
    let t := advanceWave i s
    let dec : Bool := c.waveControl.getLsbD 4
    let a : Nat :=
      if dec then (c.waveAddr.toNat + 2 ^ 34 - c.waveIncrement.toNat) % 2 ^ 34
      else (c.waveAddr.toNat + c.waveIncrement.toNat) % 2 ^ 34
    let hit : Prop := if dec then a < c.waveStart.toNat else c.waveEnd.toNat < a
    let past : Nat := if dec then c.waveStart.toNat - a else a - c.waveEnd.toNat
    let fromStart : WaveQ := BitVec.ofNat 34 (c.waveStart.toNat + past)
    let fromEnd : WaveQ := BitVec.ofNat 34 (c.waveEnd.toNat + 2 ^ 34 - past)
    let stopped : Prop := c.waveControl.getLsbD 0 = true
    let loop : Prop := c.waveControl.getLsbD 1 = true
    let bidir : Prop := c.waveControl.getLsbD 2 = true
    let rollover : Prop := c.rampControl.getLsbD 3 = true
    (stopped → t.chan i = c) ∧
    (¬stopped → ¬hit → t.chan i = { c with waveAddr := BitVec.ofNat 34 a }) ∧
    (¬stopped → hit → rollover → t.chan i = { c with waveAddr := BitVec.ofNat 34 a }) ∧
    (¬stopped → hit → ¬rollover → loop → ¬bidir →
      t.chan i = { c with waveAddr := if dec then fromEnd else fromStart }) ∧
    (¬stopped → hit → ¬rollover → loop → bidir →
      t.chan i =
        { c with waveAddr := if dec then fromStart else fromEnd, waveControl := c.waveControl ^^^ 0x10#8 }) ∧
    (¬stopped → hit → ¬rollover → ¬loop →
      t.chan i =
        { c with waveAddr := if dec then c.waveStart else c.waveEnd, waveControl := c.waveControl ||| 0x01#8 }) ∧
    (∀ k : ChanIdx, t.g.waveIrq.getLsbD k.val = true ↔
      (s.g.waveIrq.getLsbD k.val = true ∨ (k = i ∧ ¬stopped ∧ hit ∧ c.waveControl.getLsbD 5 = true))) ∧
    t.g = { s.g with waveIrq := t.g.waveIrq } ∧
    SameChansBut i s t ∧ SameOutside s t ∧ SameTimers s t ∧ t.dma = s.dma ∧ SameSched s t ∧ t.fifo = s.fifo ∧
    SameMem s t ∧ t.result = s.result ∧ t.emitted = s.emitted

/-- R172: after `N` advances of a running voice without a boundary, the address is `wave_addr0 + N * k`, or
`wave_addr0 - N * k` where it decreases, modulo `2^34`, and nothing else of the channel has changed. -/
def Obligations.WaveAddressAccumulatesWithoutDrift : Prop :=
  ∀ (c : Channel) (N : Nat), c.waveControl.getLsbD 0 = false →
    (∀ n, n < N → (Channel.advanceWave^[n] c).waveHit = false) →
    let d := Channel.advanceWave^[N] c
    d = { c with waveAddr := d.waveAddr } ∧
    (d.waveAddr.toNat : Int) =
      (if c.waveControl.getLsbD 4 then (c.waveAddr.toNat : Int) - N * c.waveIncrement.toNat
        else (c.waveAddr.toNat : Int) + N * c.waveIncrement.toNat) % 2 ^ 34

/-- R173, for a `wave_start` at or below the wrapped address: a decreasing running voice whose address is smaller than
its increment wraps below zero, sees no boundary, raises nothing and goes on. -/
def Obligations.AnUnderflowingAddressWrapsUnseen : Prop :=
  ∀ c : Channel, c.waveControl.getLsbD 0 = false → c.waveControl.getLsbD 4 = true →
    c.waveAddr.toNat < c.waveIncrement.toNat →
    c.waveStart.toNat ≤ 2 ^ 34 - (c.waveIncrement.toNat - c.waveAddr.toNat) →
    c.advanceWave =
      { c with waveAddr := BitVec.ofNat 34 (2 ^ 34 - (c.waveIncrement.toNat - c.waveAddr.toNat)) } ∧
    c.waveRaises = false

/-- R177: `AdvanceRamp(i)` on unbounded integers with the clamp to `0 .. MAX_RAMP - 1`: nothing while stopped; else the
step, the loop, the bounce or the stop, with both attenuation factors recomputed; the cause flag of channel `i` is set
iff a running ramp hits a boundary with `IRQEN`, and everything else is as it was. -/
def Obligations.AdvanceRampFollowsItsRule : Prop :=
  ∀ (i : ChanIdx) (s : State), s.cfg.WF →
    let c := s.chan i
    let t := advanceRamp i s
    let d := t.chan i
    let rc := c.rampControl
    let dec : Bool := rc.getLsbD 4
    let lo : Int := c.rampStart.toNat
    let hi : Int := c.rampEnd.toNat
    let v : Int :=
      if dec then (c.rampVol.toNat : Int) - c.rampIncrement.toNat else (c.rampVol.toNat : Int) + c.rampIncrement.toNat
    let hit : Prop := if dec then v < lo else v > hi
    let clamp : Int → Int := fun x => max 0 (min x ((s.cfg.maxRamp : Int) - 1))
    let stopped : Prop := rc.getLsbD 0 = true
    let loop : Prop := rc.getLsbD 1 = true
    let bidir : Prop := rc.getLsbD 2 = true
    (stopped → d = c) ∧
    (¬stopped →
      d = { c with
        rampVol := d.rampVol, rampControl := d.rampControl
        attenL := attenLeft s.cfg c.panPosition d.rampVol, attenR := attenRight s.cfg c.panPosition d.rampVol }) ∧
    (¬stopped → ¬hit → (d.rampVol.toNat : Int) = clamp v ∧ d.rampControl = rc) ∧
    (¬stopped → hit → loop → bidir →
      (d.rampVol.toNat : Int) = clamp (if dec then lo + (lo - v) else hi - (v - hi)) ∧
      d.rampControl = rc ^^^ 0x10#8) ∧
    (¬stopped → hit → loop → ¬bidir →
      (d.rampVol.toNat : Int) = clamp (if dec then hi - (lo - v) else lo + (v - hi)) ∧ d.rampControl = rc) ∧
    (¬stopped → hit → ¬loop →
      (d.rampVol.toNat : Int) = clamp (if dec then lo else hi) ∧ d.rampControl = rc ||| 0x01#8) ∧
    (∀ k : ChanIdx, t.g.rampIrq.getLsbD k.val = true ↔
      (s.g.rampIrq.getLsbD k.val = true ∨ (k = i ∧ ¬stopped ∧ hit ∧ rc.getLsbD 5 = true))) ∧
    t.g = { s.g with rampIrq := t.g.rampIrq } ∧
    SameChansBut i s t ∧ SameOutside s t ∧ SameTimers s t ∧ t.dma = s.dma ∧ SameSched s t ∧ t.fifo = s.fifo ∧
    SameMem s t ∧ t.result = s.result ∧ t.emitted = s.emitted

/-! ### Sample fetch, mix, audio tick (`44_fetch_mix.md`) -/

/-- R66, R62: the remap keeps the bank, doubles the offset in it, and its result is even. -/
def Obligations.RemapKeepsTheBankAndDoublesTheOffset : Prop :=
  ∀ (c : Config) (a : Addr), c.WF →
    (remap16 c a).toNat = remapIndex c.bankBits a.toNat ∧
    (remap16 c a).toNat / 2 ^ c.bankBits = a.toNat / 2 ^ c.bankBits ∧
    (remap16 c a).toNat % 2 = 0

/-- R193, with the strict bound on a rising slope only: weight 0 gives the first sample, and the result lies between
the two samples. -/
def Obligations.InterpolationLiesBetweenItsSamples : Prop :=
  ∀ (s0 s1 : Int) (f : Nat), f ≤ 1023 →
    interp s0 s1 0 = s0 ∧ min s0 s1 ≤ interp s0 s1 f ∧ interp s0 s1 f ≤ max s0 s1 ∧
    (s0 < s1 → interp s0 s1 f < s1)

/-- R191, R192, R193, R61, R65: the value of a sample fetch from the bytes of device memory as numbers. -/
def Obligations.FetchBlendsTheTwoSurroundingSamples : Prop :=
  ∀ (i : ChanIdx) (s : State), s.cfg.WF →
    let c := s.chan i
    let a : Nat := c.waveAddr.toNat / 1024
    let f : Int := (c.waveAddr.toNat % 1024 : Nat)
    let s8 : Nat → Int := fun k => 256 * signedValue 8 (byteNat s k)
    let s16 : Nat → Int := fun k => signedValue 16 (byteNat s k + 256 * byteNat s (k + 1))
    (c.waveControl.getLsbD 3 = false →
      fetchSample i s = s8 a + (s8 (a + 1) - s8 a) * f / 1024) ∧
    (c.waveControl.getLsbD 3 = true →
      let k0 := remapIndex s.cfg.bankBits a
      let k1 := remapIndex s.cfg.bankBits ((a + 1) % 2 ^ 24)
      fetchSample i s = s16 k0 + (s16 k1 - s16 k0) * f / 1024)

/-- R200 to R203, R194, R197, R198: `TICK` completes; every voice below the count is fetched and mixed as it stood
before the tick, has its cache tag updated and is advanced once, wave before ramp; every other channel is as it was;
the output is the clamped sum of the input and all addends, handed back and emitted; the cause flags gain what the
advances raise; the interrupt line is brought up to date; everything else is as it was. -/
def Obligations.TickServesEveryActiveVoiceOnce : Prop :=
  ∀ (inL inR : BitVec 24) (s : State),
    let n := s.g.activeVoiceCount.toNat
    let left : BitVec 16 := clamp16 (inL.toInt +
      ((List.finRange 32).map (fun i =>
        if i.val < n then scaleSample (fetchSample i s) (s.chan i).attenL else 0)).sum)
    let right : BitVec 16 := clamp16 (inR.toInt +
      ((List.finRange 32).map (fun i =>
        if i.val < n then scaleSample (fetchSample i s) (s.chan i).attenR else 0)).sum)
    ∃ t, exec (.tick inL inR) s = .next t ∧
      t.result = some ((right ++ left).setWidth 48) ∧ t.emitted = s.emitted ++ [.audioOut left right] ∧
      (∀ i : ChanIdx, i.val < n →
        t.chan i = Channel.advanceRamp s.cfg
          { s.chan i with cacheTag := (s.chan i).waveAddr.extractLsb' 14 20, cacheValid := true }.advanceWave) ∧
      (∀ i : ChanIdx, n ≤ i.val → t.chan i = s.chan i) ∧
      (∀ i : ChanIdx, t.g.waveIrq.getLsbD i.val =
        (s.g.waveIrq.getLsbD i.val || (decide (i.val < n) && (s.chan i).waveRaises))) ∧
      (∀ i : ChanIdx, t.g.rampIrq.getLsbD i.val =
        (s.g.rampIrq.getLsbD i.val || (decide (i.val < n) && (s.chan i).rampRaises))) ∧
      t.g = irqUpdated { s.g with waveIrq := t.g.waveIrq, rampIrq := t.g.rampIrq } ∧
      SameOutside s t ∧ SameTimers s t ∧ t.dma = s.dma ∧ SameSched s t ∧ t.fifo = s.fifo ∧ SameMem s t

/-- R196: under the default functions the factors are the integer part of the level times `15 - p` and `p`. R199 (c),
(d), (f), for a channel whose factors are in step with its pan and level: pan 0 adds nothing on the right
and pan 15 nothing on the left under every configuration; a level with integer part 0 adds nothing under the default
functions; a negative sample with a factor that is not 0 never adds 0. -/
def Obligations.QuietVoicesAddNothing : Prop :=
  (∀ (c : Config) (p : BitVec 4) (v : RampQ), c.attenCurve = .standard →
    (attenLeft c p v).toNat = v.toNat / 1024 * (15 - p.toNat) ∧ (attenRight c p v).toNat = v.toNat / 1024 * p.toNat) ∧
  ∀ (c : Config) (n : Nat) (ch : Channel) (x : Int), ch.Ok c n →
    (ch.panPosition = 0 → scaleSample x ch.attenR = 0) ∧
    (ch.panPosition = 15 → scaleSample x ch.attenL = 0) ∧
    (c.attenCurve = .standard → ch.rampVol.toNat < 0x400 →
      scaleSample x ch.attenL = 0 ∧ scaleSample x ch.attenR = 0) ∧
    (x < 0 → ch.attenL ≠ 0 → scaleSample x ch.attenL < 0) ∧
    (x < 0 → ch.attenR ≠ 0 → scaleSample x ch.attenR < 0)

/-- R203: with every active voice silent a tick hands back the clamped inputs. -/
def Obligations.ATickOfSilentVoicesPassesTheInputsThrough : Prop :=
  ∀ (inL inR : BitVec 24) (s : State),
    (∀ i : ChanIdx, i.val < s.g.activeVoiceCount.toNat → (s.chan i).attenL = 0 ∧ (s.chan i).attenR = 0) →
    ∃ t, exec (.tick inL inR) s = .next t ∧
      t.result = some ((BitVec.ofInt 16 (max (-32768) (min inR.toInt 32767)) ++
        BitVec.ofInt 16 (max (-32768) (min inL.toInt 32767))).setWidth 48)

/-- R74: a poked byte is what the next fetch of every 8-bit voice standing on it hears, at weight 0. -/
def Obligations.APokedByteIsHeardByTheNextFetch : Prop :=
  ∀ (s : State) (v : Byte) (i : ChanIdx),
    (s.chan i).waveControl.getLsbD 3 = false → (s.chan i).waveAddr.toNat % 1024 = 0 →
    (s.chan i).waveAddr.toNat / 1024 % 2 ^ s.cfg.memAddrBits = s.g.memAddr.toNat % 2 ^ s.cfg.memAddrBits →
    ∃ t, exec (.memPoke v) s = .next t ∧ fetchSample i t = 256 * v.toInt

/-! ### Global register file (`45_global.md`, and the latches of `41_dma.md`) -/

/-- R141, R222, R126, R127, R128: these writes latch their operands in the register file and do nothing else. -/
def Obligations.LatchWritesStoreOnlyTheirRegister : Prop :=
  ∀ s : State,
    (∀ n, ∃ t, exec (.selCh n) s = .next t ∧ Silent s t ∧ SameButG s t ∧ t.g = { s.g with selChannel := n }) ∧
    (∀ a, ∃ t, exec (.memAddr a) s = .next t ∧ Silent s t ∧ SameButG s t ∧ t.g = { s.g with memAddr := a }) ∧
    (∀ a, ∃ t, exec (.dmaAddr a) s = .next t ∧ Silent s t ∧ SameButG s t ∧ t.g = { s.g with dmaAddr := a }) ∧
    (∀ us, ∃ t, exec (.dmaInterval us) s = .next t ∧ Silent s t ∧ SameButG s t ∧
      t.g = { s.g with dmaCfgInterval := us }) ∧
    (∀ auto w16 total, ∃ t, exec (.dmaSetup auto w16 total) s = .next t ∧ Silent s t ∧ SameButG s t ∧
      t.g = { s.g with
        dmaCfgAuto := auto, dmaCfgUnit := if w16 then .two else .one, dmaCfgTotal := total })

/-- R142, R212, R214, R215, R220, R229, R224, R228, R131, R135: each read hands back its value and changes nothing. -/
def Obligations.GlobalReadsHandBackTheirValue : Prop :=
  ∀ s : State,
    (∃ t, exec .getCh s = .next t ∧ HandsBack (s.g.selChannel.setWidth 48) s t ∧ SameState s t) ∧
    (∃ t, exec .getMode s = .next t ∧ HandsBack (s.g.mode.setWidth 48) s t ∧ SameState s t) ∧
    (∃ t, exec .getVoices s = .next t ∧ HandsBack (s.g.activeVoiceCount.setWidth 48) s t ∧ SameState s t) ∧
    (∃ t, exec .getRate s = .next t ∧ HandsBack (BitVec.ofNat 48 s.g.baseRate) s t ∧ SameState s t) ∧
    (∃ t, exec .getIrqst s = .next t ∧ HandsBack ((effectiveIrqStatus s.g).setWidth 48) s t ∧ SameState s t) ∧
    (∃ t, exec .getMemaddr s = .next t ∧ HandsBack (s.g.memAddr.setWidth 48) s t ∧ SameState s t) ∧
    (∃ t, exec .memPeek s = .next t ∧
      HandsBack ((s.byteAt (s.g.memAddr.toNat % 2 ^ s.cfg.memAddrBits)).setWidth 48) s t ∧ SameState s t) ∧
    (∃ t, exec .getDmaaddr s = .next t ∧ HandsBack (s.g.dmaAddr.setWidth 48) s t ∧ SameState s t) ∧
    (∀ k, ∃ t v, exec (.getTmr k) s = .next t ∧ HandsBack v s t ∧ SameState s t ∧
      v.toNat = (s.tmr k).delay.toNat * 2 ^ 16 + (s.tmr k).reached.toNat * 2 ^ 11 + (s.tmr k).running.toNat * 2 ^ 10 +
        (s.tmr k).masked.toNat * 2 ^ 9 + (s.tmr k).raiseIrq.toNat * 2 ^ 8 + (s.tmr k).reload.toNat) ∧
    (∃ t v, exec .getFifo s = .next t ∧ HandsBack v s t ∧ SameState s t ∧
      v.toNat = (if s.fifo.state = .running then 2 ^ 16 else 0) + s.fifo.count % 2 ^ 16)

/-- R223, R224, R65, R12: `MEM_POKE` writes the one byte that the masked address reaches, every other byte and all else
is as it was, and `MEM_PEEK` then hands the byte back. -/
def Obligations.PokeWritesOneByteAndPeekReadsIt : Prop :=
  ∀ (s : State) (v : Byte), ∃ t, exec (.memPoke v) s = .next t ∧ Silent s t ∧
    (∀ a : Nat, t.byteAt a = if a = s.g.memAddr.toNat % 2 ^ s.cfg.memAddrBits then v else s.byteAt a) ∧
    SameOutside s t ∧ SameChans s t ∧ t.g = s.g ∧ SameTimers s t ∧ t.dma = s.dma ∧ SameSched s t ∧ t.fifo = s.fifo ∧
    ∃ u, exec .memPeek t = .next u ∧ HandsBack (v.setWidth 48) t u

/-- R213: `SET_VOICES` clamps the count to 14 .. 32, takes the rate from the table, recomputes the increments of all 32
channels, brings the interrupt line up to date, and leaves everything else as it was. -/
def Obligations.SetVoicesClampsAndRescalesEveryChannel : Prop :=
  ∀ (n : BitVec 6) (s : State),
    let m := max 14 (min n.toNat 32)
    ∃ t, exec (.setVoices n) s = .next t ∧ Silent s t ∧
      t.g = irqUpdated { s.g with
        activeVoiceCount := BitVec.ofNat 6 m, baseRate := s.cfg.rateTable.getD (m - 1) 0 } ∧
      t.g.activeVoiceCount.toNat = m ∧
      (∀ i, t.chan i = { s.chan i with
        waveIncrement := waveStep s.cfg (s.chan i).waveFreq m
        rampIncrement := rampStep s.cfg (s.chan i).rampRate m }) ∧
      SameOutside s t ∧ SameTimers s t ∧ t.dma = s.dma ∧ SameSched s t ∧ t.fifo = s.fifo ∧ SameMem s t

/-- R210, for a word with bit 0 set: no reset; bits 2:1 are stored only if the block was running already. -/
def Obligations.RunningWordStoresTheModeWithoutReset : Prop :=
  ∀ (w : BitVec 16) (s : State), w.getLsbD 0 = true →
    ∃ t, exec (.reset w) s = .next t ∧ Silent s t ∧ SameButG s t ∧
      t.g = irqUpdated { s.g with
        mode := if s.g.mode.getLsbD 0 then w.extractLsb' 0 8 else w.extractLsb' 0 8 &&& 0xF9#8 }

/-- R210, R211, for a word with bit 0 clear: the device reset of every channel, of the register file, of the DMA engine
and of both timers, the block's own events removed, and everything the rule does not name as it was. -/
def Obligations.HaltingWordResetsTheDevice : Prop :=
  ∀ (w : BitVec 16) (s : State), s.cfg.WF → w.getLsbD 0 = false →
    let n := s.cfg.voicesDefault
    ∃ t, exec (.reset w) s = .next t ∧ Silent s t ∧
      (∀ i, t.chan i = { s.chan i with
        rampVol := 0, waveControl := 0x01, rampControl := 0x01, panPosition := s.cfg.panCentre, cacheValid := false
        attenL := attenLeft s.cfg s.cfg.panCentre 0, attenR := attenRight s.cfg s.cfg.panCentre 0
        waveIncrement := waveStep s.cfg (s.chan i).waveFreq n
        rampIncrement := rampStep s.cfg (s.chan i).rampRate n }) ∧
      t.g = { s.g with
        mode := w.extractLsb' 0 8 &&& 0xF9#8, activeVoiceCount := BitVec.ofNat 6 n, baseRate := rateOf s.cfg n
        waveIrq := 0, rampIrq := 0, timerIrq := 0, irqChan := 0, irqLine := false, dmaControl := 0 } ∧
      t.tmr0 = ⟨0, 0, false, false, false, false⟩ ∧ t.tmr1 = ⟨0, 0, false, false, false, false⟩ ∧
      t.dma = { s.dma with running := false, xfer := .idle } ∧
      t.alarms = s.alarms.filter (fun a =>
        !(decide (s.pending 0 = some a.id ∨ s.pending 1 = some a.id ∨ s.pending 2 = some a.id) && !a.expired)) ∧
      (∀ e, e < 3 → t.event e = { s.event e with pending := none }) ∧ (∀ e, 3 ≤ e → t.event e = s.event e) ∧
      t.now = s.now ∧ t.nextAlarmId = s.nextAlarmId ∧ SameOutside s t ∧ t.fifo = s.fifo ∧ SameMem s t

/-- R264 (a): a second reset with the same word leaves the state as the first left it. -/
def Obligations.ResettingTwiceIsResettingOnce : Prop :=
  ∀ (w : BitVec 16) (s t : State), w.getLsbD 0 = false → exec (.reset w) s = .next t → exec (.reset w) t = .next t

/-- R216, R217: the five status bits from the raw causes and their gates, and the line asserted iff one of them is. -/
def Obligations.EffectiveStatusGatesTheRawCauses : Prop :=
  ∀ g : Globals,
    ((effectiveIrqStatus g).getLsbD 0 = true ↔ g.dmaControl.getLsbD 8 = true ∧ g.dmaControl.getLsbD 2 = true) ∧
    ((effectiveIrqStatus g).getLsbD 1 = true ↔ g.timerIrq.getLsbD 0 = true) ∧
    ((effectiveIrqStatus g).getLsbD 2 = true ↔ g.timerIrq.getLsbD 1 = true) ∧
    ((effectiveIrqStatus g).getLsbD 3 = true ↔
      g.mode.getLsbD 2 = true ∧ ∃ i : ChanIdx, i.val < g.activeVoiceCount.toNat ∧ g.waveIrq.getLsbD i.val = true) ∧
    ((effectiveIrqStatus g).getLsbD 4 = true ↔
      g.mode.getLsbD 2 = true ∧ ∃ i : ChanIdx, i.val < g.activeVoiceCount.toNat ∧ g.rampIrq.getLsbD i.val = true) ∧
    ((irqUpdated g).irqLine = true ↔ ∃ k : Fin 5, (effectiveIrqStatus g).getLsbD k.val = true) ∧
    irqUpdated g = { g with irqChan := (irqUpdated g).irqChan, irqLine := (irqUpdated g).irqLine }

/-- R219: with no voice cause pending the pointer keeps its value; else it moves upward, wrapping from 31 to 0, to the
first channel that has one. -/
def Obligations.BlamePointerMovesToTheNextPendingChannel : Prop :=
  ∀ g : Globals,
    let pending : BitVec 5 → Prop := fun k =>
      k.toNat < g.activeVoiceCount.toNat ∧ (g.waveIrq.getLsbD k.toNat = true ∨ g.rampIrq.getLsbD k.toNat = true)
    let p := (irqUpdated g).irqChan
    ((∀ k, ¬pending k) → p = g.irqChan) ∧
    ((∃ k, pending k) → pending p ∧ ∀ k, (k - g.irqChan).toNat < (p - g.irqChan).toNat → ¬pending k)

/-- R221: `ACK_VIRQ` hands back the blamed channel with its two cause flags, clears these two flags and no other, brings
pointer and line up to date, and leaves everything else as it was. A channel at or above the voice count reads no cause
and keeps its flags: R221's corner cases and R271 (H12), which the model takes over R221's pseudocode (log 26). -/
def Obligations.AckVirqClearsTheBlamedChannelsCauses : Prop :=
  ∀ s : State,
    let k := s.g.irqChan
    let active : Bool := k.toNat < s.g.activeVoiceCount.toNat
    ∃ t v, exec .ackVirq s = .next t ∧ HandsBack v s t ∧
      v.toNat = k.toNat + 32 * (active && s.g.waveIrq.getLsbD k.toNat).toNat +
        64 * (active && s.g.rampIrq.getLsbD k.toNat).toNat ∧
      (∀ j, t.g.waveIrq.getLsbD j = (s.g.waveIrq.getLsbD j && !(decide (j = k.toNat) && active))) ∧
      (∀ j, t.g.rampIrq.getLsbD j = (s.g.rampIrq.getLsbD j && !(decide (j = k.toNat) && active))) ∧
      t.g = irqUpdated { s.g with waveIrq := t.g.waveIrq, rampIrq := t.g.rampIrq } ∧ SameButG s t

/-! ### Hardware timers (`45_global.md`) -/

/-- R225: `TMR_CFG` stores reload, flags and delay; it starts a timer that was stopped, leaves the alarm of a running
one alone, stops it, or leaves it stopped where the scheduler table is full. -/
def Obligations.TimerConfigStartsAndStopsTheTimer : Prop :=
  ∀ (k : BitVec 1) (reload : BitVec 8) (irq masked run : Bool) (s : State), s.cfg.WF →
    let x := s.tmr k
    let unit := if k = 0#1 then s.cfg.timerUnit0 else s.cfg.timerUnit1
    let d : BitVec 32 := BitVec.ofNat 32 ((256 - reload.toNat) * unit)
    let e := 1 + k.toNat
    let kept := keptAlarms e s
    let set : Bool → Timer := fun r =>
      { delay := d, reload := reload, reached := x.reached, raiseIrq := irq, masked := masked, running := r }
    ∃ t, exec (.tmrCfg k reload irq masked run) s = .next t ∧ t.result = none ∧
      d.toNat = (256 - reload.toNat) * unit ∧ d ≠ 0 ∧
      (run = false → t.tmr k = set false ∧ t.alarms = kept ∧ t.event e = { s.event e with pending := none } ∧
        t.nextAlarmId = s.nextAlarmId ∧ t.emitted = s.emitted) ∧
      (run = true → x.running = true → t.tmr k = set true ∧ t.alarms = s.alarms ∧ t.event e = s.event e ∧
        t.nextAlarmId = s.nextAlarmId ∧ t.emitted = s.emitted) ∧
      (run = true → x.running = false → kept.length < s.cfg.schedCapacity →
        t.tmr k = set true ∧ t.alarms = kept ++ [⟨s.nextAlarmId, e, s.now + d.toNat, false⟩] ∧
        t.event e = ⟨some s.nextAlarmId, k.setWidth 32⟩ ∧ t.nextAlarmId = s.nextAlarmId + 1 ∧
        t.emitted = s.emitted) ∧
      (run = true → x.running = false → s.cfg.schedCapacity ≤ kept.length →
        t.tmr k = set false ∧ t.alarms = kept ∧ t.event e = { s.event e with pending := none } ∧
        t.nextAlarmId = s.nextAlarmId ∧ t.emitted = s.emitted ++ [.log .schedulerTableFull]) ∧
      (∀ j, j ≠ k → t.tmr j = s.tmr j) ∧ SameEventsBut e s t ∧ t.now = s.now ∧ t.g = irqUpdated s.g ∧
      SameOutside s t ∧ SameChans s t ∧ t.dma = s.dma ∧ t.fifo = s.fifo ∧ SameMem s t

/-- R226: a fire of a running timer sets `reached` unless it is masked and its cause flag if it raises interrupts,
brings the line up to date, returns the delay and touches nothing else. -/
def Obligations.TimerFireMarksTheTimerAndReturnsItsDelay : Prop :=
  ∀ (value : BitVec 32) (s : State),
    let k : BitVec 1 := value.extractLsb' 0 1
    let x := s.tmr k
    let t := (timerFire value s).1
    (x.running = false → timerFire value s = (s, 0)) ∧
    (x.running = true →
      (timerFire value s).2 = x.delay ∧ t.tmr k = { x with reached := x.reached || !x.masked } ∧
      (∀ j, j ≠ k → t.tmr j = s.tmr j) ∧
      (∀ j : Fin 2, t.g.timerIrq.getLsbD j.val =
        (s.g.timerIrq.getLsbD j.val || (decide (j.val = k.toNat) && x.raiseIrq))) ∧
      t.g = irqUpdated { s.g with timerIrq := t.g.timerIrq } ∧
      SameOutside s t ∧ SameChans s t ∧ t.dma = s.dma ∧ SameSched s t ∧ t.fifo = s.fifo ∧ SameMem s t ∧
      t.result = s.result ∧ t.emitted = s.emitted)

/-- R227: `TMR_ACK` clears `reached` and the cause flag of each timer of its mask, and nothing else but the line. -/
def Obligations.TimerAckClearsTheMaskedTimers : Prop :=
  ∀ (mask : BitVec 2) (s : State), ∃ t, exec (.tmrAck mask) s = .next t ∧ Silent s t ∧
    (∀ k : BitVec 1, t.tmr k = { s.tmr k with reached := (s.tmr k).reached && !mask.getLsbD k.toNat }) ∧
    (∀ j, t.g.timerIrq.getLsbD j = (s.g.timerIrq.getLsbD j && !mask.getLsbD j)) ∧
    t.g = irqUpdated { s.g with timerIrq := t.g.timerIrq } ∧
    SameOutside s t ∧ SameChans s t ∧ t.dma = s.dma ∧ SameSched s t ∧ t.fifo = s.fifo ∧ SameMem s t

/-! ### Scheduler (`40_scheduler.md`) -/

/-- R102, R104: `EV_ADD` of an external event cancels its unexpired alarm and arms a new one with a fresh id, or, where
the table is full, leaves the event inactive with its value and logs; everything else is as it was. -/
def Obligations.EvAddArmsTheEventOrIsRejected : Prop :=
  ∀ (e : BitVec 8) (delay : BitVec 32) (value : BitVec 16) (s : State), 3 ≤ e.toNat → e.toNat < 3 + s.cfg.extEvents →
    let kept := keptAlarms e.toNat s
    ∃ t, exec (.evAdd e delay value) s = .next t ∧ t.result = none ∧
      (kept.length < s.cfg.schedCapacity →
        t.alarms = kept ++ [⟨s.nextAlarmId, e.toNat, s.now + delay.toNat, false⟩] ∧
        t.event e.toNat = ⟨some s.nextAlarmId, value.setWidth 32⟩ ∧ t.nextAlarmId = s.nextAlarmId + 1 ∧
        t.emitted = s.emitted) ∧
      (s.cfg.schedCapacity ≤ kept.length →
        t.alarms = kept ∧ t.event e.toNat = { s.event e.toNat with pending := none } ∧
        t.nextAlarmId = s.nextAlarmId ∧ t.emitted = s.emitted ++ [.log .schedulerTableFull]) ∧
      SameEventsBut e.toNat s t ∧ t.now = s.now ∧
      SameOutside s t ∧ SameChans s t ∧ t.g = s.g ∧ SameTimers s t ∧ t.dma = s.dma ∧ t.fifo = s.fifo ∧ SameMem s t

/-- R103, R105: `EV_REMOVE` of an external event makes it inactive, takes its alarm out of the table unless it has
expired, and leaves everything else as it was; a second one leaves the same state. -/
def Obligations.EvRemoveCancelsAndIsIdempotent : Prop :=
  ∀ (e : BitVec 8) (s : State), 3 ≤ e.toNat → e.toNat < 3 + s.cfg.extEvents →
    ∃ t, exec (.evRemove e) s = .next t ∧ Silent s t ∧ t.alarms = keptAlarms e.toNat s ∧
      t.event e.toNat = { s.event e.toNat with pending := none } ∧ SameEventsBut e.toNat s t ∧ t.now = s.now ∧
      t.nextAlarmId = s.nextAlarmId ∧
      SameOutside s t ∧ SameChans s t ∧ t.g = s.g ∧ SameTimers s t ∧ t.dma = s.dma ∧ t.fifo = s.fifo ∧ SameMem s t ∧
      exec (.evRemove e) t = .next t

/-- R114, R85: `GET_EV` reads whether an event of the table is active; an event id out of range, and for `EV_ADD` and
`EV_REMOVE` an event of the block itself, changes no state; `GET_EV` then reads `READ_SENTINEL`. -/
def Obligations.EventIdsAreReadOrRefusedByRange : Prop :=
  ∀ (e : BitVec 8) (s : State),
    (e.toNat < 3 + s.cfg.extEvents → ∃ t, exec (.getEv e) s = .next t ∧
      HandsBack (if s.pending e.toNat = none then 0 else 1) s t ∧ SameState s t) ∧
    (3 + s.cfg.extEvents ≤ e.toNat → ∃ t, exec (.getEv e) s = .next t ∧ SameState s t ∧
      t.result = some s.cfg.readSentinel) ∧
    (e.toNat < 3 ∨ 3 + s.cfg.extEvents ≤ e.toNat →
      (∀ delay value, ∃ t, exec (.evAdd e delay value) s = .next t ∧ SameState s t) ∧
      ∃ t, exec (.evRemove e) s = .next t ∧ SameState s t)

/-- R108, R248: the least expired entry, when it is no longer its event's pending alarm, is dropped; no handler runs
and nothing else changes. -/
def Obligations.AStaleFireIsDroppedSilently : Prop :=
  ∀ (s : State) (a : Alarm), a ∈ s.alarms → a.expired = true →
    (∀ b ∈ s.alarms, b.expired = true → b ≠ a → a.due < b.due ∨ (a.due = b.due ∧ a.id < b.id)) →
    s.pending a.ev ≠ some a.id →
    alarmDispatch s = { s with alarms := s.alarms.filter (fun b => b.id != a.id) }

/-- R108, R109, R249: the dispatch of the pending alarm of an external event whose handler answers with scheduler calls
and the value `r`: the fire is emitted with its intended time and the calls happen; where they re-armed or removed the
event itself the entry is dropped and `r` ignored; else 0 deactivates the event and any other value re-arms the same
entry that long after its intended time, whatever the clock says. Nothing but the calls, the entry and the event
changes; the last two clauses say what a call on the handler's own event leaves. -/
def Obligations.AnExternalFireReturnsByItsValue : Prop :=
  ∀ (s : State) (a : Alarm) (calls : List ClientCall) (r : BitVec 32) (rest : List ExtAnswer),
    a ∈ s.alarms → a.expired = true →
    (∀ b ∈ s.alarms, b.expired = true → b ≠ a → a.due < b.due ∨ (a.due = b.due ∧ a.id < b.id)) →
    s.pending a.ev = some a.id → 3 ≤ a.ev → s.env.extAnswers = ⟨calls, r⟩ :: rest →
    let fired := { s with
      env := { s.env with extAnswers := rest }
      emitted := s.emitted ++ [.extFire a.ev (s.event a.ev).value a.due] }
    let u := calls.foldl (fun x c => clientCall c x) fired
    let t := alarmDispatch s
    let others : List Alarm → List Alarm := fun l => l.filter (fun b => b.id != a.id)
    (calls = [] → u.pending a.ev = some a.id ∧ u.alarms = s.alarms ∧ u.event a.ev = s.event a.ev) ∧
    (u.pending a.ev ≠ some a.id → t = { u with alarms := others u.alarms }) ∧
    (u.pending a.ev = some a.id → r = 0 →
      t = { u with alarms := others u.alarms, events := t.events } ∧
      t.event a.ev = { u.event a.ev with pending := none } ∧ SameEventsBut a.ev u t) ∧
    (u.pending a.ev = some a.id → r ≠ 0 →
      t = { u with alarms := u.alarms.map (fun b =>
        if b.id = a.id then { b with due := a.due + r.toNat, expired := false } else b) }) ∧
    (calls = [.remove a.ev] → a.ev < 3 + s.cfg.extEvents →
      t.alarms = others s.alarms ∧ t.event a.ev = { s.event a.ev with pending := none }) ∧
    (∀ d v, calls = [.add a.ev d v] → a.ev < 3 + s.cfg.extEvents → a.id < s.nextAlarmId →
      (keptAlarms a.ev s).length < s.cfg.schedCapacity →
      t.alarms = others s.alarms ++ [⟨s.nextAlarmId, a.ev, s.now + d.toNat, false⟩] ∧
      t.event a.ev = ⟨some s.nextAlarmId, v⟩)

/-- R108, R109, R122, R226, R249: the dispatch of the pending alarm of an event of the block runs its handler, `DmaTick`
for `EV_DMA` and `TimerFire` with the event's value for a timer's event; a return of 0 deactivates the event, any other
value re-arms the same entry that long after its intended time; all else is as the handler leaves it. -/
def Obligations.ADispatchRunsTheHandlerOfTheBlocksEvent : Prop :=
  ∀ (s : State) (a : Alarm), a ∈ s.alarms → a.expired = true →
    (∀ b ∈ s.alarms, b.expired = true → b ≠ a → a.due < b.due ∨ (a.due = b.due ∧ a.id < b.id)) →
    s.pending a.ev = some a.id → a.ev < 3 →
    let h := if a.ev = 0 then dmaTick s else timerFire (s.event a.ev).value s
    let t := alarmDispatch s
    SameSched s h.1 ∧
    (h.2 = 0 →
      t = { h.1 with alarms := s.alarms.filter (fun b => b.id != a.id), events := t.events } ∧
      t.event a.ev = { s.event a.ev with pending := none } ∧ SameEventsBut a.ev s t) ∧
    (h.2 ≠ 0 →
      t = { h.1 with alarms := s.alarms.map (fun b =>
        if b.id = a.id then { b with due := a.due + h.2.toNat, expired := false } else b) })

/-- R110, for an external event alone in the table: late fires with non-zero answers `r1 .. rk` leave it due at
`due + r1 + ... + rk`, and fire `j + 1` was emitted with intended time `due + r1 + ... + rj`, whatever the latencies. -/
def Obligations.LateFiresDoNotDrift : Prop :=
  ∀ (ps : List (Nat × BitVec 32)) (s : State) (id e due : Nat) (rest : List ExtAnswer),
    s.alarms = [⟨id, e, due, false⟩] → s.pending e = some id → 3 ≤ e →
    s.env.extAnswers = ps.map (fun p => ⟨[], p.2⟩) ++ rest →
    (∀ p ∈ ps, p.2 ≠ 0) →
    (∀ k, k < ps.length →
      due + ((ps.take k).map (fun p => p.2.toNat)).sum ≤ s.now + ((ps.take (k + 1)).map (fun p => p.1)).sum) →
    let t := lateFires id (ps.map (fun p => p.1)) s
    t.alarms = [⟨id, e, due + (ps.map (fun p => p.2.toNat)).sum, false⟩] ∧
    t.emitted = s.emitted ++ (List.range ps.length).map (fun k =>
      .extFire e (s.event e).value (due + ((ps.take k).map (fun p => p.2.toNat)).sum)) ∧
    t.pending e = some id ∧ t.now = s.now + (ps.map (fun p => p.1)).sum

/-- R111: a `WAIT` within which nothing expires or falls due only moves the clock. -/
def Obligations.WaitWithNothingDueOnlyMovesTheClock : Prop :=
  ∀ (us : BitVec 48) (s : State),
    (∀ a ∈ s.alarms, a.expired = false ∧ s.now + us.toNat < a.due) →
    exec (.wait us) s = .next { s with now := s.now + us.toNat, result := none }

/-- R111, log 9: a `WAIT` completes and hands nothing back; either its loop has ended, the clock stands at its end and
nothing is left that expired or falls due by then, or something is left and the rest of the wait stands first in the
inbox. A `WAIT` with a least entry that expired or falls due goes on from the state in which the clock is at that entry's
time and the entry is expired and dispatched: with one round less of the model's bound (log 9), and, in a state of the
invariant with no external event pending, as the `WAIT` for the time that remains. It touches no channel, not the FIFO,
not the configuration, of the register file only what a fire writes, of a timer only `reached`, the DMA engine only where
its event is pending, and device memory only where that engine moves bytes from the host. -/
def Obligations.WaitEndsItsLoopOrLeavesTheRestPresented : Prop :=
  ∀ (us : BitVec 48) (s : State), let target := s.now + us.toNat
    ∃ t, exec (.wait us) s = .next t ∧ t.result = none ∧
    ((t.inbox = s.inbox ∧ t.now = target ∧ ∀ a ∈ t.alarms, a.expired = false ∧ target < a.due) ∨
      (t.inbox = .waitUntil target :: s.inbox ∧ ∃ a ∈ t.alarms, a.expired = true ∨ a.due ≤ target)) ∧
    (∀ a ∈ s.alarms, (a.expired = true ∨ a.due ≤ target) →
      (∀ b ∈ s.alarms, (b.expired = true ∨ b.due ≤ target) → b ≠ a →
        a.due < b.due ∨ (a.due = b.due ∧ a.id < b.id)) →
      let u := alarmDispatch (alarmExpire a.id { s with now := max s.now a.due })
      1 ≤ waitRounds target s ∧ t = (waitLoop target (waitRounds target s - 1) u).done ∧
      (s.Inv → (∀ e, 3 ≤ e → s.pending e = none) →
        u.now = max s.now a.due ∧ exec (.wait (BitVec.ofNat 48 (target - u.now))) u = .next t)) ∧
    SameChans s t ∧ t.fifo = s.fifo ∧ t.cfg = s.cfg ∧
    t.g = { s.g with
      timerIrq := t.g.timerIrq, irqChan := t.g.irqChan, irqLine := t.g.irqLine
      dmaControl := t.g.dmaControl, dmaAddr := t.g.dmaAddr } ∧
    (∀ k, t.tmr k = { s.tmr k with reached := (t.tmr k).reached }) ∧
    (s.pending 0 = none → t.dma = s.dma) ∧
    (s.pending 0 = none ∨ s.g.dmaControl.getLsbD 1 = true → SameMem s t)

/-- R111: in a state of the invariant with no external event pending, a `WAIT` always ends its loop: the clock stands at
its end and every alarm left is due later. -/
def Obligations.WaitWithoutExternalEventsEndsItsLoop : Prop :=
  ∀ (us : BitVec 48) (s : State), s.Inv → (∀ e, 3 ≤ e → s.pending e = none) →
    ∃ t, exec (.wait us) s = .next t ∧ t.inbox = s.inbox ∧ t.now = s.now + us.toNat ∧
      ∀ a ∈ t.alarms, a.expired = false ∧ s.now + us.toNat < a.due

/-! ### DMA engine and audio FIFO (`41_dma.md`) -/

/-- R129, R121: `SET_DMACTL` with `ENABLE` on an idle engine with a count, a period and a free slot starts it: the byte
is stored with `TC` kept, the setup registers are taken, the override replaces the period, and the first tick is armed
one period from now; everything else is as it was. -/
def Obligations.EnableStartsAnIdleEngine : Prop :=
  ∀ (v : BitVec 8) (s : State),
    let us := if s.cfg.dmaIntervalOverride = 0 then s.g.dmaCfgInterval else s.cfg.dmaIntervalOverride
    let kept := keptAlarms 0 s
    v.getLsbD 0 = true → s.dma.running = false → s.g.dmaCfgTotal ≠ 0 → us ≠ 0 →
    kept.length < s.cfg.schedCapacity →
    ∃ t, exec (.setDmactl v) s = .next t ∧ Silent s t ∧
      t.dma = { s.dma with
        total := s.g.dmaCfgTotal, remaining := s.g.dmaCfgTotal, bytesPerUnit := s.g.dmaCfgUnit
        intervalUs := us, autoInit := s.g.dmaCfgAuto, running := true } ∧
      t.alarms = kept ++ [⟨s.nextAlarmId, 0, s.now + us.toNat, false⟩] ∧
      t.event 0 = ⟨some s.nextAlarmId, 0⟩ ∧ t.nextAlarmId = s.nextAlarmId + 1 ∧ SameEventsBut 0 s t ∧
      t.g = irqUpdated { s.g with dmaControl := s.g.dmaControl.extractLsb' 8 1 ++ v } ∧
      t.now = s.now ∧ SameOutside s t ∧ SameChans s t ∧ SameTimers s t ∧ t.fifo = s.fifo ∧ SameMem s t

/-- R129, R121, R102, R123: the other cases of `SET_DMACTL`: a running engine, a count or period of 0, a full table (the
setup registers are taken, the engine is idle again and its event inactive), and the cancel by `ENABLE` = 0. The byte is
stored with `TC` kept in every case. -/
def Obligations.OtherDmaControlWritesStartNothing : Prop :=
  ∀ (v : BitVec 8) (s : State),
    let us := if s.cfg.dmaIntervalOverride = 0 then s.g.dmaCfgInterval else s.cfg.dmaIntervalOverride
    let kept := keptAlarms 0 s
    let idle := v.getLsbD 0 = true ∧ s.dma.running = false
    ∃ t, exec (.setDmactl v) s = .next t ∧ t.result = none ∧
      t.g = irqUpdated { s.g with dmaControl := s.g.dmaControl.extractLsb' 8 1 ++ v } ∧
      (v.getLsbD 0 = true → s.dma.running = true →
        t.dma = s.dma ∧ SameSched s t ∧ t.emitted = s.emitted ++ [.log .dmaAlreadyRunning]) ∧
      (idle → (s.g.dmaCfgTotal = 0 ∨ us = 0) → t.dma = s.dma ∧ SameSched s t ∧ t.emitted = s.emitted) ∧
      (idle → s.g.dmaCfgTotal ≠ 0 → us ≠ 0 → s.cfg.schedCapacity ≤ kept.length →
        t.dma = { s.dma with
          total := s.g.dmaCfgTotal, remaining := s.g.dmaCfgTotal, bytesPerUnit := s.g.dmaCfgUnit
          intervalUs := us, autoInit := s.g.dmaCfgAuto, running := false } ∧
        t.alarms = kept ∧ t.event 0 = { s.event 0 with pending := none } ∧ SameEventsBut 0 s t ∧
        t.nextAlarmId = s.nextAlarmId ∧ t.emitted = s.emitted ++ [.log .schedulerTableFull]) ∧
      (v.getLsbD 0 = false →
        t.dma = { s.dma with running := false, xfer := .idle } ∧ t.alarms = kept ∧
        t.event 0 = { s.event 0 with pending := none } ∧ SameEventsBut 0 s t ∧ t.nextAlarmId = s.nextAlarmId ∧
        t.emitted = s.emitted) ∧
      t.now = s.now ∧ SameOutside s t ∧ SameChans s t ∧ SameTimers s t ∧ t.fifo = s.fifo ∧ SameMem s t

/-- R125: one transfer cycle moves `bytes_per_unit` bytes at `g.dma_addr`, in the direction of `DIR`, with the host's
bytes supplied; it emits them, advances the address modulo `2^24`, leaves the transport as idle and everything else,
every other byte of device memory too, as it was. -/
def Obligations.ATransferCycleMovesExactlyOneUnit : Prop :=
  ∀ (s : State) (bytes rest : List Byte), s.cfg.WF →
    let n := match s.dma.bytesPerUnit with
      | .one => 1
      | .two => 2
    let place : Nat → Nat := fun k => (s.g.dmaAddr.toNat + k) % 2 ^ 24 % 2 ^ s.cfg.memAddrBits
    let t := transferCycle s
    bytes.length = n →
    (s.g.dmaControl.getLsbD 1 = false → s.env.hostBytes = bytes ++ rest →
      (∀ k, k < n → t.byteAt (place k) = bytes.getD k 0) ∧
      (∀ a, (∀ k, k < n → a ≠ place k) → t.byteAt a = s.byteAt a) ∧
      t.env = { s.env with hostBytes := rest } ∧ t.emitted = s.emitted ++ [.dmaIn s.g.dmaAddr bytes]) ∧
    (s.g.dmaControl.getLsbD 1 = true →
      SameMem s t ∧ t.env = s.env ∧
      t.emitted = s.emitted ++ [.dmaOut s.g.dmaAddr ((List.range n).map (fun k => s.byteAt (place k)))]) ∧
    t.g = { s.g with dmaAddr := BitVec.ofNat 24 (s.g.dmaAddr.toNat + n) } ∧
    t.dma = { s.dma with xfer := .idle } ∧ t.cfg = s.cfg ∧ t.inbox = s.inbox ∧
    SameChans s t ∧ SameTimers s t ∧ SameSched s t ∧ t.fifo = s.fifo ∧ t.result = s.result

/-- R122, R124, R120: a tick of a running engine performs one transfer cycle and counts down; at terminal count `TC` is
set, `ENABLE` cleared and no other control bit changed, the line follows the effective status and is asserted if
`IRQ_EN` is set, and the engine reloads or stops; the return value is the period, or 0 where it stops. -/
def Obligations.ADmaTickCountsDownToTerminalCount : Prop :=
  ∀ s : State,
    let moved := transferCycle s
    let t := (dmaTick s).1
    let r := (dmaTick s).2
    (s.dma.running = false → dmaTick s = (s, 0)) ∧
    (s.dma.running = true → s.dma.remaining ≠ 1 →
      t = { moved with dma := { moved.dma with remaining := s.dma.remaining - 1 } } ∧ r = s.dma.intervalUs) ∧
    (s.dma.running = true → s.dma.remaining = 1 →
      t.g.dmaControl.getLsbD 8 = true ∧ t.g.dmaControl.getLsbD 0 = false ∧
      (∀ k, 1 ≤ k → k ≤ 7 → t.g.dmaControl.getLsbD k = s.g.dmaControl.getLsbD k) ∧
      t.g = irqUpdated { moved.g with dmaControl := t.g.dmaControl } ∧
      (s.g.dmaControl.getLsbD 2 = true → t.g.irqLine = true) ∧
      (s.dma.autoInit = true → t.dma = { moved.dma with remaining := s.dma.total } ∧ r = s.dma.intervalUs) ∧
      (s.dma.autoInit = false → t.dma = { moved.dma with remaining := 0, running := false } ∧ r = 0) ∧
      t = { moved with g := t.g, dma := t.dma })

/-- R130: `GET_DMACTL` hands back the nine control bits and clears `TC`, nothing else but pointer and line. -/
def Obligations.GetDmactlClearsTerminalCount : Prop :=
  ∀ s : State, ∃ t, exec .getDmactl s = .next t ∧ HandsBack (s.g.dmaControl.setWidth 48) s t ∧
    (∀ k, t.g.dmaControl.getLsbD k = (s.g.dmaControl.getLsbD k && decide (k ≠ 8))) ∧
    t.g = irqUpdated { s.g with dmaControl := t.g.dmaControl } ∧ SameButG s t

/-- R133, R134: a push stores its byte at the write index and starts the FIFO at the threshold, or is dropped when the
FIFO is full; a pop hands back nothing while stopped, else the byte at the read index with bit 8 set, and stops the
FIFO when it is drained; everything else is as it was. -/
def Obligations.FifoPushAndPopFollowTheirRules : Prop :=
  ∀ s : State,
    let f := s.fifo
    let cap := s.cfg.fifoCapacity
    let at_ : State → Nat → Byte := fun u k => Memory.read u.cfg.fifoFill u.fifo.buf k
    (∀ b : Byte, ∃ t, exec (.fifoPush b) s = .next t ∧ t.result = none ∧
      (f.count = cap - 1 → t.fifo = f ∧ t.emitted = s.emitted ++ [.log .fifoFull]) ∧
      (f.count ≠ cap - 1 →
        t.emitted = s.emitted ∧ (∀ k, at_ t k = if k = f.writeIndex then b else at_ s k) ∧
        t.fifo.writeIndex = (f.writeIndex + 1) % cap ∧ t.fifo.readIndex = f.readIndex ∧ t.fifo.count = f.count + 1 ∧
        (t.fifo.state = .running ↔ f.state = .running ∨ s.cfg.fifoThreshold ≤ f.count + 1)) ∧
      SameOutside s t ∧ SameChans s t ∧ t.g = s.g ∧ SameTimers s t ∧ t.dma = s.dma ∧ SameSched s t ∧ SameMem s t) ∧
    (∃ t, exec .fifoPop s = .next t ∧ t.emitted = s.emitted ∧
      (f.state = .stopped → t.result = some 0 ∧ t.fifo = f) ∧
      (f.state = .running →
        t.result = some (BitVec.ofNat 48 (256 + (at_ s f.readIndex).toNat)) ∧ (∀ k, at_ t k = at_ s k) ∧
        t.fifo.readIndex = (f.readIndex + 1) % cap ∧ t.fifo.writeIndex = f.writeIndex ∧ t.fifo.count = f.count - 1 ∧
        (t.fifo.state = .stopped ↔ f.count - 1 = 0)) ∧
      SameOutside s t ∧ SameChans s t ∧ t.g = s.g ∧ SameTimers s t ∧ t.dma = s.dma ∧ SameSched s t ∧ SameMem s t)

/-- R132 to R134: the FIFO is a queue: a push with room appends its byte to the contents, and a pop of a running FIFO
hands back the first byte of the contents and leaves the rest. -/
def Obligations.TheFifoIsAQueue : Prop :=
  ∀ s : State, s.cfg.WF → s.fifo.Ok s.cfg →
    (∀ b : Byte, s.fifo.count + 1 < s.cfg.fifoCapacity →
      ∃ t, exec (.fifoPush b) s = .next t ∧ t.fifo.contents t.cfg = s.fifo.contents s.cfg ++ [b]) ∧
    (s.fifo.state = .running →
      ∃ t b, exec .fifoPop s = .next t ∧ t.result = some (0x100#48 ||| b.setWidth 48) ∧
        s.fifo.contents s.cfg = b :: t.fifo.contents t.cfg)

/-! ### Boot and invariants (`10_state.md`, `70_reset_and_hazards.md`) -/

/-- R260: the boot state is every field zero, one device reset applied, and the mode byte zero. -/
def Obligations.BootIsAllZeroThenADeviceReset : Prop :=
  ∀ c : Config,
    State.boot c = { deviceReset (zeroState c) with g := { (deviceReset (zeroState c)).g with mode := 0x00 } }

/-- R46, R113: the invariants hold right after boot under every configuration that meets R8, at `State.reset` too. -/
def Obligations.TheInvariantsHoldAfterBoot : Prop :=
  (∀ c : Config, c.WF → (State.boot c).Inv) ∧ State.reset.Inv

/-- R46, R113: every step keeps the invariants, from every state that meets them, whatever is presented. -/
def Obligations.EveryStepKeepsTheInvariants : Prop :=
  ∀ s t : State, s.Inv → step s = .next t → t.Inv
end

