-- ==== Sys2Proof/Laws/State.lean ====
section
/-! SUPPORT. One lemma per field and accessor for each named update of the state, so that no later proof unfolds a
record update. -/

namespace Sys2Proof.Machine

/-! ### `State.ret` -/

@[simp] theorem State.ret_cfg (v : Imm) (s : State) : (s.ret v).cfg = s.cfg := rfl
@[simp] theorem State.ret_chans (v : Imm) (s : State) : (s.ret v).chans = s.chans := rfl
@[simp] theorem State.ret_g (v : Imm) (s : State) : (s.ret v).g = s.g := rfl
@[simp] theorem State.ret_tmr0 (v : Imm) (s : State) : (s.ret v).tmr0 = s.tmr0 := rfl
@[simp] theorem State.ret_tmr1 (v : Imm) (s : State) : (s.ret v).tmr1 = s.tmr1 := rfl
@[simp] theorem State.ret_dma (v : Imm) (s : State) : (s.ret v).dma = s.dma := rfl
@[simp] theorem State.ret_now (v : Imm) (s : State) : (s.ret v).now = s.now := rfl
@[simp] theorem State.ret_alarms (v : Imm) (s : State) : (s.ret v).alarms = s.alarms := rfl
@[simp] theorem State.ret_nextAlarmId (v : Imm) (s : State) : (s.ret v).nextAlarmId = s.nextAlarmId := rfl
@[simp] theorem State.ret_events (v : Imm) (s : State) : (s.ret v).events = s.events := rfl
@[simp] theorem State.ret_fifo (v : Imm) (s : State) : (s.ret v).fifo = s.fifo := rfl
@[simp] theorem State.ret_mem (v : Imm) (s : State) : (s.ret v).mem = s.mem := rfl
@[simp] theorem State.ret_env (v : Imm) (s : State) : (s.ret v).env = s.env := rfl
@[simp] theorem State.ret_inbox (v : Imm) (s : State) : (s.ret v).inbox = s.inbox := rfl
@[simp] theorem State.ret_result (v : Imm) (s : State) : (s.ret v).result = some v := rfl
@[simp] theorem State.ret_emitted (v : Imm) (s : State) : (s.ret v).emitted = s.emitted := rfl
@[simp] theorem State.ret_chan (v : Imm) (i : ChanIdx) (s : State) : (s.ret v).chan i = s.chan i := rfl
@[simp] theorem State.ret_event (v : Imm) (e : Nat) (s : State) : (s.ret v).event e = s.event e := rfl
@[simp] theorem State.ret_pending (v : Imm) (e : Nat) (s : State) : (s.ret v).pending e = s.pending e := rfl
@[simp] theorem State.ret_byteAt (v : Imm) (a : Nat) (s : State) : (s.ret v).byteAt a = s.byteAt a := rfl
@[simp] theorem State.ret_memRead (v : Imm) (a : Addr) (s : State) : (s.ret v).memRead a = s.memRead a := rfl
@[simp] theorem State.ret_tmr (v : Imm) (t : BitVec 1) (s : State) : (s.ret v).tmr t = s.tmr t := rfl
@[simp] theorem State.ret_sel (v : Imm) (s : State) : (s.ret v).sel = s.sel := rfl
@[simp] theorem State.ret_selChan (v : Imm) (s : State) : (s.ret v).selChan = s.selChan := rfl

/-! ### `State.done` -/

@[simp] theorem State.done_cfg (s : State) : (s.done).cfg = s.cfg := rfl
@[simp] theorem State.done_chans (s : State) : (s.done).chans = s.chans := rfl
@[simp] theorem State.done_g (s : State) : (s.done).g = s.g := rfl
@[simp] theorem State.done_tmr0 (s : State) : (s.done).tmr0 = s.tmr0 := rfl
@[simp] theorem State.done_tmr1 (s : State) : (s.done).tmr1 = s.tmr1 := rfl
@[simp] theorem State.done_dma (s : State) : (s.done).dma = s.dma := rfl
@[simp] theorem State.done_now (s : State) : (s.done).now = s.now := rfl
@[simp] theorem State.done_alarms (s : State) : (s.done).alarms = s.alarms := rfl
@[simp] theorem State.done_nextAlarmId (s : State) : (s.done).nextAlarmId = s.nextAlarmId := rfl
@[simp] theorem State.done_events (s : State) : (s.done).events = s.events := rfl
@[simp] theorem State.done_fifo (s : State) : (s.done).fifo = s.fifo := rfl
@[simp] theorem State.done_mem (s : State) : (s.done).mem = s.mem := rfl
@[simp] theorem State.done_env (s : State) : (s.done).env = s.env := rfl
@[simp] theorem State.done_inbox (s : State) : (s.done).inbox = s.inbox := rfl
@[simp] theorem State.done_result (s : State) : (s.done).result = none := rfl
@[simp] theorem State.done_emitted (s : State) : (s.done).emitted = s.emitted := rfl
@[simp] theorem State.done_chan (i : ChanIdx) (s : State) : (s.done).chan i = s.chan i := rfl
@[simp] theorem State.done_event (e : Nat) (s : State) : (s.done).event e = s.event e := rfl
@[simp] theorem State.done_pending (e : Nat) (s : State) : (s.done).pending e = s.pending e := rfl
@[simp] theorem State.done_byteAt (a : Nat) (s : State) : (s.done).byteAt a = s.byteAt a := rfl
@[simp] theorem State.done_memRead (a : Addr) (s : State) : (s.done).memRead a = s.memRead a := rfl
@[simp] theorem State.done_tmr (t : BitVec 1) (s : State) : (s.done).tmr t = s.tmr t := rfl
@[simp] theorem State.done_sel  (s : State) : (s.done).sel = s.sel := rfl
@[simp] theorem State.done_selChan  (s : State) : (s.done).selChan = s.selChan := rfl

/-! ### `State.emit` -/

@[simp] theorem State.emit_cfg (x : Emission) (s : State) : (s.emit x).cfg = s.cfg := rfl
@[simp] theorem State.emit_chans (x : Emission) (s : State) : (s.emit x).chans = s.chans := rfl
@[simp] theorem State.emit_g (x : Emission) (s : State) : (s.emit x).g = s.g := rfl
@[simp] theorem State.emit_tmr0 (x : Emission) (s : State) : (s.emit x).tmr0 = s.tmr0 := rfl
@[simp] theorem State.emit_tmr1 (x : Emission) (s : State) : (s.emit x).tmr1 = s.tmr1 := rfl
@[simp] theorem State.emit_dma (x : Emission) (s : State) : (s.emit x).dma = s.dma := rfl
@[simp] theorem State.emit_now (x : Emission) (s : State) : (s.emit x).now = s.now := rfl
@[simp] theorem State.emit_alarms (x : Emission) (s : State) : (s.emit x).alarms = s.alarms := rfl
@[simp] theorem State.emit_nextAlarmId (x : Emission) (s : State) : (s.emit x).nextAlarmId = s.nextAlarmId := rfl
@[simp] theorem State.emit_events (x : Emission) (s : State) : (s.emit x).events = s.events := rfl
@[simp] theorem State.emit_fifo (x : Emission) (s : State) : (s.emit x).fifo = s.fifo := rfl
@[simp] theorem State.emit_mem (x : Emission) (s : State) : (s.emit x).mem = s.mem := rfl
@[simp] theorem State.emit_env (x : Emission) (s : State) : (s.emit x).env = s.env := rfl
@[simp] theorem State.emit_inbox (x : Emission) (s : State) : (s.emit x).inbox = s.inbox := rfl
@[simp] theorem State.emit_result (x : Emission) (s : State) : (s.emit x).result = s.result := rfl
@[simp] theorem State.emit_emitted (x : Emission) (s : State) : (s.emit x).emitted = s.emitted ++ [x] := rfl
@[simp] theorem State.emit_chan (x : Emission) (i : ChanIdx) (s : State) : (s.emit x).chan i = s.chan i := rfl
@[simp] theorem State.emit_event (x : Emission) (e : Nat) (s : State) : (s.emit x).event e = s.event e := rfl
@[simp] theorem State.emit_pending (x : Emission) (e : Nat) (s : State) : (s.emit x).pending e = s.pending e := rfl
@[simp] theorem State.emit_byteAt (x : Emission) (a : Nat) (s : State) : (s.emit x).byteAt a = s.byteAt a := rfl
@[simp] theorem State.emit_memRead (x : Emission) (a : Addr) (s : State) : (s.emit x).memRead a = s.memRead a := rfl
@[simp] theorem State.emit_tmr (x : Emission) (t : BitVec 1) (s : State) : (s.emit x).tmr t = s.tmr t := rfl
@[simp] theorem State.emit_sel (x : Emission) (s : State) : (s.emit x).sel = s.sel := rfl
@[simp] theorem State.emit_selChan (x : Emission) (s : State) : (s.emit x).selChan = s.selChan := rfl

/-! ### `State.setChan` -/

@[simp] theorem State.setChan_cfg (k : ChanIdx) (c : Channel) (s : State) : (s.setChan k c).cfg = s.cfg := rfl
@[simp] theorem State.setChan_chans (k : ChanIdx) (c : Channel) (s : State) : (s.setChan k c).chans = s.chans.set k.val c k.isLt := rfl
@[simp] theorem State.setChan_g (k : ChanIdx) (c : Channel) (s : State) : (s.setChan k c).g = s.g := rfl
@[simp] theorem State.setChan_tmr0 (k : ChanIdx) (c : Channel) (s : State) : (s.setChan k c).tmr0 = s.tmr0 := rfl
@[simp] theorem State.setChan_tmr1 (k : ChanIdx) (c : Channel) (s : State) : (s.setChan k c).tmr1 = s.tmr1 := rfl
@[simp] theorem State.setChan_dma (k : ChanIdx) (c : Channel) (s : State) : (s.setChan k c).dma = s.dma := rfl
@[simp] theorem State.setChan_now (k : ChanIdx) (c : Channel) (s : State) : (s.setChan k c).now = s.now := rfl
@[simp] theorem State.setChan_alarms (k : ChanIdx) (c : Channel) (s : State) : (s.setChan k c).alarms = s.alarms := rfl
@[simp] theorem State.setChan_nextAlarmId (k : ChanIdx) (c : Channel) (s : State) : (s.setChan k c).nextAlarmId = s.nextAlarmId := rfl
@[simp] theorem State.setChan_events (k : ChanIdx) (c : Channel) (s : State) : (s.setChan k c).events = s.events := rfl
@[simp] theorem State.setChan_fifo (k : ChanIdx) (c : Channel) (s : State) : (s.setChan k c).fifo = s.fifo := rfl
@[simp] theorem State.setChan_mem (k : ChanIdx) (c : Channel) (s : State) : (s.setChan k c).mem = s.mem := rfl
@[simp] theorem State.setChan_env (k : ChanIdx) (c : Channel) (s : State) : (s.setChan k c).env = s.env := rfl
@[simp] theorem State.setChan_inbox (k : ChanIdx) (c : Channel) (s : State) : (s.setChan k c).inbox = s.inbox := rfl
@[simp] theorem State.setChan_result (k : ChanIdx) (c : Channel) (s : State) : (s.setChan k c).result = s.result := rfl
@[simp] theorem State.setChan_emitted (k : ChanIdx) (c : Channel) (s : State) : (s.setChan k c).emitted = s.emitted := rfl
@[simp] theorem State.setChan_event (k : ChanIdx) (c : Channel) (e : Nat) (s : State) : (s.setChan k c).event e = s.event e := rfl
@[simp] theorem State.setChan_pending (k : ChanIdx) (c : Channel) (e : Nat) (s : State) : (s.setChan k c).pending e = s.pending e := rfl
@[simp] theorem State.setChan_byteAt (k : ChanIdx) (c : Channel) (a : Nat) (s : State) : (s.setChan k c).byteAt a = s.byteAt a := rfl
@[simp] theorem State.setChan_memRead (k : ChanIdx) (c : Channel) (a : Addr) (s : State) : (s.setChan k c).memRead a = s.memRead a := rfl
@[simp] theorem State.setChan_tmr (k : ChanIdx) (c : Channel) (t : BitVec 1) (s : State) : (s.setChan k c).tmr t = s.tmr t := rfl
@[simp] theorem State.setChan_sel (k : ChanIdx) (c : Channel) (s : State) : (s.setChan k c).sel = s.sel := rfl

/-! ### `State.onSel` -/

@[simp] theorem State.onSel_cfg (f : Channel → Channel) (s : State) : (s.onSel f).cfg = s.cfg := rfl
@[simp] theorem State.onSel_chans (f : Channel → Channel) (s : State) : (s.onSel f).chans = s.chans.set s.sel.val (f s.selChan) s.sel.isLt := rfl
@[simp] theorem State.onSel_g (f : Channel → Channel) (s : State) : (s.onSel f).g = s.g := rfl
@[simp] theorem State.onSel_tmr0 (f : Channel → Channel) (s : State) : (s.onSel f).tmr0 = s.tmr0 := rfl
@[simp] theorem State.onSel_tmr1 (f : Channel → Channel) (s : State) : (s.onSel f).tmr1 = s.tmr1 := rfl
@[simp] theorem State.onSel_dma (f : Channel → Channel) (s : State) : (s.onSel f).dma = s.dma := rfl
@[simp] theorem State.onSel_now (f : Channel → Channel) (s : State) : (s.onSel f).now = s.now := rfl
@[simp] theorem State.onSel_alarms (f : Channel → Channel) (s : State) : (s.onSel f).alarms = s.alarms := rfl
@[simp] theorem State.onSel_nextAlarmId (f : Channel → Channel) (s : State) : (s.onSel f).nextAlarmId = s.nextAlarmId := rfl
@[simp] theorem State.onSel_events (f : Channel → Channel) (s : State) : (s.onSel f).events = s.events := rfl
@[simp] theorem State.onSel_fifo (f : Channel → Channel) (s : State) : (s.onSel f).fifo = s.fifo := rfl
@[simp] theorem State.onSel_mem (f : Channel → Channel) (s : State) : (s.onSel f).mem = s.mem := rfl
@[simp] theorem State.onSel_env (f : Channel → Channel) (s : State) : (s.onSel f).env = s.env := rfl
@[simp] theorem State.onSel_inbox (f : Channel → Channel) (s : State) : (s.onSel f).inbox = s.inbox := rfl
@[simp] theorem State.onSel_result (f : Channel → Channel) (s : State) : (s.onSel f).result = s.result := rfl
@[simp] theorem State.onSel_emitted (f : Channel → Channel) (s : State) : (s.onSel f).emitted = s.emitted := rfl
@[simp] theorem State.onSel_event (f : Channel → Channel) (e : Nat) (s : State) : (s.onSel f).event e = s.event e := rfl
@[simp] theorem State.onSel_pending (f : Channel → Channel) (e : Nat) (s : State) : (s.onSel f).pending e = s.pending e := rfl
@[simp] theorem State.onSel_byteAt (f : Channel → Channel) (a : Nat) (s : State) : (s.onSel f).byteAt a = s.byteAt a := rfl
@[simp] theorem State.onSel_memRead (f : Channel → Channel) (a : Addr) (s : State) : (s.onSel f).memRead a = s.memRead a := rfl
@[simp] theorem State.onSel_tmr (f : Channel → Channel) (t : BitVec 1) (s : State) : (s.onSel f).tmr t = s.tmr t := rfl
@[simp] theorem State.onSel_sel (f : Channel → Channel) (s : State) : (s.onSel f).sel = s.sel := rfl

/-! ### `State.onG` -/

@[simp] theorem State.onG_cfg (f : Globals → Globals) (s : State) : (s.onG f).cfg = s.cfg := rfl
@[simp] theorem State.onG_chans (f : Globals → Globals) (s : State) : (s.onG f).chans = s.chans := rfl
@[simp] theorem State.onG_g (f : Globals → Globals) (s : State) : (s.onG f).g = f s.g := rfl
@[simp] theorem State.onG_tmr0 (f : Globals → Globals) (s : State) : (s.onG f).tmr0 = s.tmr0 := rfl
@[simp] theorem State.onG_tmr1 (f : Globals → Globals) (s : State) : (s.onG f).tmr1 = s.tmr1 := rfl
@[simp] theorem State.onG_dma (f : Globals → Globals) (s : State) : (s.onG f).dma = s.dma := rfl
@[simp] theorem State.onG_now (f : Globals → Globals) (s : State) : (s.onG f).now = s.now := rfl
@[simp] theorem State.onG_alarms (f : Globals → Globals) (s : State) : (s.onG f).alarms = s.alarms := rfl
@[simp] theorem State.onG_nextAlarmId (f : Globals → Globals) (s : State) : (s.onG f).nextAlarmId = s.nextAlarmId := rfl
@[simp] theorem State.onG_events (f : Globals → Globals) (s : State) : (s.onG f).events = s.events := rfl
@[simp] theorem State.onG_fifo (f : Globals → Globals) (s : State) : (s.onG f).fifo = s.fifo := rfl
@[simp] theorem State.onG_mem (f : Globals → Globals) (s : State) : (s.onG f).mem = s.mem := rfl
@[simp] theorem State.onG_env (f : Globals → Globals) (s : State) : (s.onG f).env = s.env := rfl
@[simp] theorem State.onG_inbox (f : Globals → Globals) (s : State) : (s.onG f).inbox = s.inbox := rfl
@[simp] theorem State.onG_result (f : Globals → Globals) (s : State) : (s.onG f).result = s.result := rfl
@[simp] theorem State.onG_emitted (f : Globals → Globals) (s : State) : (s.onG f).emitted = s.emitted := rfl
@[simp] theorem State.onG_chan (f : Globals → Globals) (i : ChanIdx) (s : State) : (s.onG f).chan i = s.chan i := rfl
@[simp] theorem State.onG_event (f : Globals → Globals) (e : Nat) (s : State) : (s.onG f).event e = s.event e := rfl
@[simp] theorem State.onG_pending (f : Globals → Globals) (e : Nat) (s : State) : (s.onG f).pending e = s.pending e := rfl
@[simp] theorem State.onG_byteAt (f : Globals → Globals) (a : Nat) (s : State) : (s.onG f).byteAt a = s.byteAt a := rfl
@[simp] theorem State.onG_memRead (f : Globals → Globals) (a : Addr) (s : State) : (s.onG f).memRead a = s.memRead a := rfl
@[simp] theorem State.onG_tmr (f : Globals → Globals) (t : BitVec 1) (s : State) : (s.onG f).tmr t = s.tmr t := rfl

/-! ### `State.setTmr` -/

@[simp] theorem State.setTmr_cfg (u : BitVec 1) (x : Timer) (s : State) : (s.setTmr u x).cfg = s.cfg := by
  unfold State.setTmr; split <;> rfl
@[simp] theorem State.setTmr_chans (u : BitVec 1) (x : Timer) (s : State) : (s.setTmr u x).chans = s.chans := by
  unfold State.setTmr; split <;> rfl
@[simp] theorem State.setTmr_g (u : BitVec 1) (x : Timer) (s : State) : (s.setTmr u x).g = s.g := by
  unfold State.setTmr; split <;> rfl
@[simp] theorem State.setTmr_tmr0 (u : BitVec 1) (x : Timer) (s : State) : (s.setTmr u x).tmr0 = (if u = 0#1 then x else s.tmr0) := by
  unfold State.setTmr; split <;> simp_all
@[simp] theorem State.setTmr_tmr1 (u : BitVec 1) (x : Timer) (s : State) : (s.setTmr u x).tmr1 = (if u = 0#1 then s.tmr1 else x) := by
  unfold State.setTmr; split <;> simp_all
@[simp] theorem State.setTmr_dma (u : BitVec 1) (x : Timer) (s : State) : (s.setTmr u x).dma = s.dma := by
  unfold State.setTmr; split <;> rfl
@[simp] theorem State.setTmr_now (u : BitVec 1) (x : Timer) (s : State) : (s.setTmr u x).now = s.now := by
  unfold State.setTmr; split <;> rfl
@[simp] theorem State.setTmr_alarms (u : BitVec 1) (x : Timer) (s : State) : (s.setTmr u x).alarms = s.alarms := by
  unfold State.setTmr; split <;> rfl
@[simp] theorem State.setTmr_nextAlarmId (u : BitVec 1) (x : Timer) (s : State) : (s.setTmr u x).nextAlarmId = s.nextAlarmId := by
  unfold State.setTmr; split <;> rfl
@[simp] theorem State.setTmr_events (u : BitVec 1) (x : Timer) (s : State) : (s.setTmr u x).events = s.events := by
  unfold State.setTmr; split <;> rfl
@[simp] theorem State.setTmr_fifo (u : BitVec 1) (x : Timer) (s : State) : (s.setTmr u x).fifo = s.fifo := by
  unfold State.setTmr; split <;> rfl
@[simp] theorem State.setTmr_mem (u : BitVec 1) (x : Timer) (s : State) : (s.setTmr u x).mem = s.mem := by
  unfold State.setTmr; split <;> rfl
@[simp] theorem State.setTmr_env (u : BitVec 1) (x : Timer) (s : State) : (s.setTmr u x).env = s.env := by
  unfold State.setTmr; split <;> rfl
@[simp] theorem State.setTmr_inbox (u : BitVec 1) (x : Timer) (s : State) : (s.setTmr u x).inbox = s.inbox := by
  unfold State.setTmr; split <;> rfl
@[simp] theorem State.setTmr_result (u : BitVec 1) (x : Timer) (s : State) : (s.setTmr u x).result = s.result := by
  unfold State.setTmr; split <;> rfl
@[simp] theorem State.setTmr_emitted (u : BitVec 1) (x : Timer) (s : State) : (s.setTmr u x).emitted = s.emitted := by
  unfold State.setTmr; split <;> rfl
@[simp] theorem State.setTmr_chan (u : BitVec 1) (x : Timer) (i : ChanIdx) (s : State) : (s.setTmr u x).chan i = s.chan i := by
  unfold State.setTmr; split <;> rfl
@[simp] theorem State.setTmr_event (u : BitVec 1) (x : Timer) (e : Nat) (s : State) : (s.setTmr u x).event e = s.event e := by
  unfold State.setTmr; split <;> rfl
@[simp] theorem State.setTmr_pending (u : BitVec 1) (x : Timer) (e : Nat) (s : State) : (s.setTmr u x).pending e = s.pending e := by
  unfold State.setTmr; split <;> rfl
@[simp] theorem State.setTmr_byteAt (u : BitVec 1) (x : Timer) (a : Nat) (s : State) : (s.setTmr u x).byteAt a = s.byteAt a := by
  unfold State.setTmr; split <;> rfl
@[simp] theorem State.setTmr_memRead (u : BitVec 1) (x : Timer) (a : Addr) (s : State) : (s.setTmr u x).memRead a = s.memRead a := by
  unfold State.setTmr; split <;> rfl
@[simp] theorem State.setTmr_sel (u : BitVec 1) (x : Timer) (s : State) : (s.setTmr u x).sel = s.sel := by
  unfold State.setTmr; split <;> rfl
@[simp] theorem State.setTmr_selChan (u : BitVec 1) (x : Timer) (s : State) : (s.setTmr u x).selChan = s.selChan := by
  unfold State.setTmr; split <;> rfl

/-! ### `State.setEvent` -/

@[simp] theorem State.setEvent_cfg (k : Nat) (x : EventSlot) (s : State) : (s.setEvent k x).cfg = s.cfg := rfl
@[simp] theorem State.setEvent_chans (k : Nat) (x : EventSlot) (s : State) : (s.setEvent k x).chans = s.chans := rfl
@[simp] theorem State.setEvent_g (k : Nat) (x : EventSlot) (s : State) : (s.setEvent k x).g = s.g := rfl
@[simp] theorem State.setEvent_tmr0 (k : Nat) (x : EventSlot) (s : State) : (s.setEvent k x).tmr0 = s.tmr0 := rfl
@[simp] theorem State.setEvent_tmr1 (k : Nat) (x : EventSlot) (s : State) : (s.setEvent k x).tmr1 = s.tmr1 := rfl
@[simp] theorem State.setEvent_dma (k : Nat) (x : EventSlot) (s : State) : (s.setEvent k x).dma = s.dma := rfl
@[simp] theorem State.setEvent_now (k : Nat) (x : EventSlot) (s : State) : (s.setEvent k x).now = s.now := rfl
@[simp] theorem State.setEvent_alarms (k : Nat) (x : EventSlot) (s : State) : (s.setEvent k x).alarms = s.alarms := rfl
@[simp] theorem State.setEvent_nextAlarmId (k : Nat) (x : EventSlot) (s : State) : (s.setEvent k x).nextAlarmId = s.nextAlarmId := rfl
@[simp] theorem State.setEvent_events (k : Nat) (x : EventSlot) (s : State) : (s.setEvent k x).events = setSlot s.events k x := rfl
@[simp] theorem State.setEvent_fifo (k : Nat) (x : EventSlot) (s : State) : (s.setEvent k x).fifo = s.fifo := rfl
@[simp] theorem State.setEvent_mem (k : Nat) (x : EventSlot) (s : State) : (s.setEvent k x).mem = s.mem := rfl
@[simp] theorem State.setEvent_env (k : Nat) (x : EventSlot) (s : State) : (s.setEvent k x).env = s.env := rfl
@[simp] theorem State.setEvent_inbox (k : Nat) (x : EventSlot) (s : State) : (s.setEvent k x).inbox = s.inbox := rfl
@[simp] theorem State.setEvent_result (k : Nat) (x : EventSlot) (s : State) : (s.setEvent k x).result = s.result := rfl
@[simp] theorem State.setEvent_emitted (k : Nat) (x : EventSlot) (s : State) : (s.setEvent k x).emitted = s.emitted := rfl
@[simp] theorem State.setEvent_chan (k : Nat) (x : EventSlot) (i : ChanIdx) (s : State) : (s.setEvent k x).chan i = s.chan i := rfl
@[simp] theorem State.setEvent_byteAt (k : Nat) (x : EventSlot) (a : Nat) (s : State) : (s.setEvent k x).byteAt a = s.byteAt a := rfl
@[simp] theorem State.setEvent_memRead (k : Nat) (x : EventSlot) (a : Addr) (s : State) : (s.setEvent k x).memRead a = s.memRead a := rfl
@[simp] theorem State.setEvent_tmr (k : Nat) (x : EventSlot) (t : BitVec 1) (s : State) : (s.setEvent k x).tmr t = s.tmr t := rfl
@[simp] theorem State.setEvent_sel (k : Nat) (x : EventSlot) (s : State) : (s.setEvent k x).sel = s.sel := rfl
@[simp] theorem State.setEvent_selChan (k : Nat) (x : EventSlot) (s : State) : (s.setEvent k x).selChan = s.selChan := rfl

/-! ### `State.setPending` -/

@[simp] theorem State.setPending_cfg (k : Nat) (p : Option Nat) (s : State) : (s.setPending k p).cfg = s.cfg := rfl
@[simp] theorem State.setPending_chans (k : Nat) (p : Option Nat) (s : State) : (s.setPending k p).chans = s.chans := rfl
@[simp] theorem State.setPending_g (k : Nat) (p : Option Nat) (s : State) : (s.setPending k p).g = s.g := rfl
@[simp] theorem State.setPending_tmr0 (k : Nat) (p : Option Nat) (s : State) : (s.setPending k p).tmr0 = s.tmr0 := rfl
@[simp] theorem State.setPending_tmr1 (k : Nat) (p : Option Nat) (s : State) : (s.setPending k p).tmr1 = s.tmr1 := rfl
@[simp] theorem State.setPending_dma (k : Nat) (p : Option Nat) (s : State) : (s.setPending k p).dma = s.dma := rfl
@[simp] theorem State.setPending_now (k : Nat) (p : Option Nat) (s : State) : (s.setPending k p).now = s.now := rfl
@[simp] theorem State.setPending_alarms (k : Nat) (p : Option Nat) (s : State) : (s.setPending k p).alarms = s.alarms := rfl
@[simp] theorem State.setPending_nextAlarmId (k : Nat) (p : Option Nat) (s : State) : (s.setPending k p).nextAlarmId = s.nextAlarmId := rfl
@[simp] theorem State.setPending_events (k : Nat) (p : Option Nat) (s : State) : (s.setPending k p).events = setSlot s.events k { s.event k with pending := p } := rfl
@[simp] theorem State.setPending_fifo (k : Nat) (p : Option Nat) (s : State) : (s.setPending k p).fifo = s.fifo := rfl
@[simp] theorem State.setPending_mem (k : Nat) (p : Option Nat) (s : State) : (s.setPending k p).mem = s.mem := rfl
@[simp] theorem State.setPending_env (k : Nat) (p : Option Nat) (s : State) : (s.setPending k p).env = s.env := rfl
@[simp] theorem State.setPending_inbox (k : Nat) (p : Option Nat) (s : State) : (s.setPending k p).inbox = s.inbox := rfl
@[simp] theorem State.setPending_result (k : Nat) (p : Option Nat) (s : State) : (s.setPending k p).result = s.result := rfl
@[simp] theorem State.setPending_emitted (k : Nat) (p : Option Nat) (s : State) : (s.setPending k p).emitted = s.emitted := rfl
@[simp] theorem State.setPending_chan (k : Nat) (p : Option Nat) (i : ChanIdx) (s : State) : (s.setPending k p).chan i = s.chan i := rfl
@[simp] theorem State.setPending_byteAt (k : Nat) (p : Option Nat) (a : Nat) (s : State) : (s.setPending k p).byteAt a = s.byteAt a := rfl
@[simp] theorem State.setPending_memRead (k : Nat) (p : Option Nat) (a : Addr) (s : State) : (s.setPending k p).memRead a = s.memRead a := rfl
@[simp] theorem State.setPending_tmr (k : Nat) (p : Option Nat) (t : BitVec 1) (s : State) : (s.setPending k p).tmr t = s.tmr t := rfl
@[simp] theorem State.setPending_sel (k : Nat) (p : Option Nat) (s : State) : (s.setPending k p).sel = s.sel := rfl
@[simp] theorem State.setPending_selChan (k : Nat) (p : Option Nat) (s : State) : (s.setPending k p).selChan = s.selChan := rfl

/-! ### `State.memWrite` -/

@[simp] theorem State.memWrite_cfg (b : Addr) (v : Byte) (s : State) : (s.memWrite b v).cfg = s.cfg := rfl
@[simp] theorem State.memWrite_chans (b : Addr) (v : Byte) (s : State) : (s.memWrite b v).chans = s.chans := rfl
@[simp] theorem State.memWrite_g (b : Addr) (v : Byte) (s : State) : (s.memWrite b v).g = s.g := rfl
@[simp] theorem State.memWrite_tmr0 (b : Addr) (v : Byte) (s : State) : (s.memWrite b v).tmr0 = s.tmr0 := rfl
@[simp] theorem State.memWrite_tmr1 (b : Addr) (v : Byte) (s : State) : (s.memWrite b v).tmr1 = s.tmr1 := rfl
@[simp] theorem State.memWrite_dma (b : Addr) (v : Byte) (s : State) : (s.memWrite b v).dma = s.dma := rfl
@[simp] theorem State.memWrite_now (b : Addr) (v : Byte) (s : State) : (s.memWrite b v).now = s.now := rfl
@[simp] theorem State.memWrite_alarms (b : Addr) (v : Byte) (s : State) : (s.memWrite b v).alarms = s.alarms := rfl
@[simp] theorem State.memWrite_nextAlarmId (b : Addr) (v : Byte) (s : State) : (s.memWrite b v).nextAlarmId = s.nextAlarmId := rfl
@[simp] theorem State.memWrite_events (b : Addr) (v : Byte) (s : State) : (s.memWrite b v).events = s.events := rfl
@[simp] theorem State.memWrite_fifo (b : Addr) (v : Byte) (s : State) : (s.memWrite b v).fifo = s.fifo := rfl
@[simp] theorem State.memWrite_mem (b : Addr) (v : Byte) (s : State) : (s.memWrite b v).mem = Memory.write s.cfg.memFill s.mem (maskAddr s.cfg b) v := rfl
@[simp] theorem State.memWrite_env (b : Addr) (v : Byte) (s : State) : (s.memWrite b v).env = s.env := rfl
@[simp] theorem State.memWrite_inbox (b : Addr) (v : Byte) (s : State) : (s.memWrite b v).inbox = s.inbox := rfl
@[simp] theorem State.memWrite_result (b : Addr) (v : Byte) (s : State) : (s.memWrite b v).result = s.result := rfl
@[simp] theorem State.memWrite_emitted (b : Addr) (v : Byte) (s : State) : (s.memWrite b v).emitted = s.emitted := rfl
@[simp] theorem State.memWrite_chan (b : Addr) (v : Byte) (i : ChanIdx) (s : State) : (s.memWrite b v).chan i = s.chan i := rfl
@[simp] theorem State.memWrite_event (b : Addr) (v : Byte) (e : Nat) (s : State) : (s.memWrite b v).event e = s.event e := rfl
@[simp] theorem State.memWrite_pending (b : Addr) (v : Byte) (e : Nat) (s : State) : (s.memWrite b v).pending e = s.pending e := rfl
@[simp] theorem State.memWrite_tmr (b : Addr) (v : Byte) (t : BitVec 1) (s : State) : (s.memWrite b v).tmr t = s.tmr t := rfl
@[simp] theorem State.memWrite_sel (b : Addr) (v : Byte) (s : State) : (s.memWrite b v).sel = s.sel := rfl
@[simp] theorem State.memWrite_selChan (b : Addr) (v : Byte) (s : State) : (s.memWrite b v).selChan = s.selChan := rfl

/-! ### `State.dropAlarm` -/

@[simp] theorem State.dropAlarm_cfg (id : Nat) (s : State) : (s.dropAlarm id).cfg = s.cfg := rfl
@[simp] theorem State.dropAlarm_chans (id : Nat) (s : State) : (s.dropAlarm id).chans = s.chans := rfl
@[simp] theorem State.dropAlarm_g (id : Nat) (s : State) : (s.dropAlarm id).g = s.g := rfl
@[simp] theorem State.dropAlarm_tmr0 (id : Nat) (s : State) : (s.dropAlarm id).tmr0 = s.tmr0 := rfl
@[simp] theorem State.dropAlarm_tmr1 (id : Nat) (s : State) : (s.dropAlarm id).tmr1 = s.tmr1 := rfl
@[simp] theorem State.dropAlarm_dma (id : Nat) (s : State) : (s.dropAlarm id).dma = s.dma := rfl
@[simp] theorem State.dropAlarm_now (id : Nat) (s : State) : (s.dropAlarm id).now = s.now := rfl
@[simp] theorem State.dropAlarm_alarms (id : Nat) (s : State) : (s.dropAlarm id).alarms = s.alarms.filter (fun a => a.id != id) := rfl
@[simp] theorem State.dropAlarm_nextAlarmId (id : Nat) (s : State) : (s.dropAlarm id).nextAlarmId = s.nextAlarmId := rfl
@[simp] theorem State.dropAlarm_events (id : Nat) (s : State) : (s.dropAlarm id).events = s.events := rfl
@[simp] theorem State.dropAlarm_fifo (id : Nat) (s : State) : (s.dropAlarm id).fifo = s.fifo := rfl
@[simp] theorem State.dropAlarm_mem (id : Nat) (s : State) : (s.dropAlarm id).mem = s.mem := rfl
@[simp] theorem State.dropAlarm_env (id : Nat) (s : State) : (s.dropAlarm id).env = s.env := rfl
@[simp] theorem State.dropAlarm_inbox (id : Nat) (s : State) : (s.dropAlarm id).inbox = s.inbox := rfl
@[simp] theorem State.dropAlarm_result (id : Nat) (s : State) : (s.dropAlarm id).result = s.result := rfl
@[simp] theorem State.dropAlarm_emitted (id : Nat) (s : State) : (s.dropAlarm id).emitted = s.emitted := rfl
@[simp] theorem State.dropAlarm_chan (id : Nat) (i : ChanIdx) (s : State) : (s.dropAlarm id).chan i = s.chan i := rfl
@[simp] theorem State.dropAlarm_event (id : Nat) (e : Nat) (s : State) : (s.dropAlarm id).event e = s.event e := rfl
@[simp] theorem State.dropAlarm_pending (id : Nat) (e : Nat) (s : State) : (s.dropAlarm id).pending e = s.pending e := rfl
@[simp] theorem State.dropAlarm_byteAt (id : Nat) (a : Nat) (s : State) : (s.dropAlarm id).byteAt a = s.byteAt a := rfl
@[simp] theorem State.dropAlarm_memRead (id : Nat) (a : Addr) (s : State) : (s.dropAlarm id).memRead a = s.memRead a := rfl
@[simp] theorem State.dropAlarm_tmr (id : Nat) (t : BitVec 1) (s : State) : (s.dropAlarm id).tmr t = s.tmr t := rfl
@[simp] theorem State.dropAlarm_sel (id : Nat) (s : State) : (s.dropAlarm id).sel = s.sel := rfl
@[simp] theorem State.dropAlarm_selChan (id : Nat) (s : State) : (s.dropAlarm id).selChan = s.selChan := rfl

/-! ### `State.rearmAlarm` -/

@[simp] theorem State.rearmAlarm_cfg (id due : Nat) (s : State) : (s.rearmAlarm id due).cfg = s.cfg := rfl
@[simp] theorem State.rearmAlarm_chans (id due : Nat) (s : State) : (s.rearmAlarm id due).chans = s.chans := rfl
@[simp] theorem State.rearmAlarm_g (id due : Nat) (s : State) : (s.rearmAlarm id due).g = s.g := rfl
@[simp] theorem State.rearmAlarm_tmr0 (id due : Nat) (s : State) : (s.rearmAlarm id due).tmr0 = s.tmr0 := rfl
@[simp] theorem State.rearmAlarm_tmr1 (id due : Nat) (s : State) : (s.rearmAlarm id due).tmr1 = s.tmr1 := rfl
@[simp] theorem State.rearmAlarm_dma (id due : Nat) (s : State) : (s.rearmAlarm id due).dma = s.dma := rfl
@[simp] theorem State.rearmAlarm_now (id due : Nat) (s : State) : (s.rearmAlarm id due).now = s.now := rfl
@[simp] theorem State.rearmAlarm_alarms (id due : Nat) (s : State) : (s.rearmAlarm id due).alarms = s.alarms.map (fun a => if a.id = id then { a with due := due, expired := false } else a) := rfl
@[simp] theorem State.rearmAlarm_nextAlarmId (id due : Nat) (s : State) : (s.rearmAlarm id due).nextAlarmId = s.nextAlarmId := rfl
@[simp] theorem State.rearmAlarm_events (id due : Nat) (s : State) : (s.rearmAlarm id due).events = s.events := rfl
@[simp] theorem State.rearmAlarm_fifo (id due : Nat) (s : State) : (s.rearmAlarm id due).fifo = s.fifo := rfl
@[simp] theorem State.rearmAlarm_mem (id due : Nat) (s : State) : (s.rearmAlarm id due).mem = s.mem := rfl
@[simp] theorem State.rearmAlarm_env (id due : Nat) (s : State) : (s.rearmAlarm id due).env = s.env := rfl
@[simp] theorem State.rearmAlarm_inbox (id due : Nat) (s : State) : (s.rearmAlarm id due).inbox = s.inbox := rfl
@[simp] theorem State.rearmAlarm_result (id due : Nat) (s : State) : (s.rearmAlarm id due).result = s.result := rfl
@[simp] theorem State.rearmAlarm_emitted (id due : Nat) (s : State) : (s.rearmAlarm id due).emitted = s.emitted := rfl
@[simp] theorem State.rearmAlarm_chan (id due : Nat) (i : ChanIdx) (s : State) : (s.rearmAlarm id due).chan i = s.chan i := rfl
@[simp] theorem State.rearmAlarm_event (id due : Nat) (e : Nat) (s : State) : (s.rearmAlarm id due).event e = s.event e := rfl
@[simp] theorem State.rearmAlarm_pending (id due : Nat) (e : Nat) (s : State) : (s.rearmAlarm id due).pending e = s.pending e := rfl
@[simp] theorem State.rearmAlarm_byteAt (id due : Nat) (a : Nat) (s : State) : (s.rearmAlarm id due).byteAt a = s.byteAt a := rfl
@[simp] theorem State.rearmAlarm_memRead (id due : Nat) (a : Addr) (s : State) : (s.rearmAlarm id due).memRead a = s.memRead a := rfl
@[simp] theorem State.rearmAlarm_tmr (id due : Nat) (t : BitVec 1) (s : State) : (s.rearmAlarm id due).tmr t = s.tmr t := rfl
@[simp] theorem State.rearmAlarm_sel (id due : Nat) (s : State) : (s.rearmAlarm id due).sel = s.sel := rfl
@[simp] theorem State.rearmAlarm_selChan (id due : Nat) (s : State) : (s.rearmAlarm id due).selChan = s.selChan := rfl

/-! ### `alarmExpire` -/

@[simp] theorem alarmExpire_cfg (id : Nat) (s : State) : (alarmExpire id s).cfg = s.cfg := rfl
@[simp] theorem alarmExpire_chans (id : Nat) (s : State) : (alarmExpire id s).chans = s.chans := rfl
@[simp] theorem alarmExpire_g (id : Nat) (s : State) : (alarmExpire id s).g = s.g := rfl
@[simp] theorem alarmExpire_tmr0 (id : Nat) (s : State) : (alarmExpire id s).tmr0 = s.tmr0 := rfl
@[simp] theorem alarmExpire_tmr1 (id : Nat) (s : State) : (alarmExpire id s).tmr1 = s.tmr1 := rfl
@[simp] theorem alarmExpire_dma (id : Nat) (s : State) : (alarmExpire id s).dma = s.dma := rfl
@[simp] theorem alarmExpire_now (id : Nat) (s : State) : (alarmExpire id s).now = s.now := rfl
@[simp] theorem alarmExpire_alarms (id : Nat) (s : State) : (alarmExpire id s).alarms = s.alarms.map (fun a => if a.id = id ∧ a.due ≤ s.now then { a with expired := true } else a) := rfl
@[simp] theorem alarmExpire_nextAlarmId (id : Nat) (s : State) : (alarmExpire id s).nextAlarmId = s.nextAlarmId := rfl
@[simp] theorem alarmExpire_events (id : Nat) (s : State) : (alarmExpire id s).events = s.events := rfl
@[simp] theorem alarmExpire_fifo (id : Nat) (s : State) : (alarmExpire id s).fifo = s.fifo := rfl
@[simp] theorem alarmExpire_mem (id : Nat) (s : State) : (alarmExpire id s).mem = s.mem := rfl
@[simp] theorem alarmExpire_env (id : Nat) (s : State) : (alarmExpire id s).env = s.env := rfl
@[simp] theorem alarmExpire_inbox (id : Nat) (s : State) : (alarmExpire id s).inbox = s.inbox := rfl
@[simp] theorem alarmExpire_result (id : Nat) (s : State) : (alarmExpire id s).result = s.result := rfl
@[simp] theorem alarmExpire_emitted (id : Nat) (s : State) : (alarmExpire id s).emitted = s.emitted := rfl
@[simp] theorem alarmExpire_chan (id : Nat) (i : ChanIdx) (s : State) : (alarmExpire id s).chan i = s.chan i := rfl
@[simp] theorem alarmExpire_event (id : Nat) (e : Nat) (s : State) : (alarmExpire id s).event e = s.event e := rfl
@[simp] theorem alarmExpire_pending (id : Nat) (e : Nat) (s : State) : (alarmExpire id s).pending e = s.pending e := rfl
@[simp] theorem alarmExpire_byteAt (id : Nat) (a : Nat) (s : State) : (alarmExpire id s).byteAt a = s.byteAt a := rfl
@[simp] theorem alarmExpire_memRead (id : Nat) (a : Addr) (s : State) : (alarmExpire id s).memRead a = s.memRead a := rfl
@[simp] theorem alarmExpire_tmr (id : Nat) (t : BitVec 1) (s : State) : (alarmExpire id s).tmr t = s.tmr t := rfl
@[simp] theorem alarmExpire_sel (id : Nat) (s : State) : (alarmExpire id s).sel = s.sel := rfl
@[simp] theorem alarmExpire_selChan (id : Nat) (s : State) : (alarmExpire id s).selChan = s.selChan := rfl

/-! ### `updateIrq` -/

@[simp] theorem updateIrq_cfg (s : State) : (updateIrq s).cfg = s.cfg := rfl
@[simp] theorem updateIrq_chans (s : State) : (updateIrq s).chans = s.chans := rfl
@[simp] theorem updateIrq_g (s : State) : (updateIrq s).g = irqUpdated s.g := rfl
@[simp] theorem updateIrq_tmr0 (s : State) : (updateIrq s).tmr0 = s.tmr0 := rfl
@[simp] theorem updateIrq_tmr1 (s : State) : (updateIrq s).tmr1 = s.tmr1 := rfl
@[simp] theorem updateIrq_dma (s : State) : (updateIrq s).dma = s.dma := rfl
@[simp] theorem updateIrq_now (s : State) : (updateIrq s).now = s.now := rfl
@[simp] theorem updateIrq_alarms (s : State) : (updateIrq s).alarms = s.alarms := rfl
@[simp] theorem updateIrq_nextAlarmId (s : State) : (updateIrq s).nextAlarmId = s.nextAlarmId := rfl
@[simp] theorem updateIrq_events (s : State) : (updateIrq s).events = s.events := rfl
@[simp] theorem updateIrq_fifo (s : State) : (updateIrq s).fifo = s.fifo := rfl
@[simp] theorem updateIrq_mem (s : State) : (updateIrq s).mem = s.mem := rfl
@[simp] theorem updateIrq_env (s : State) : (updateIrq s).env = s.env := rfl
@[simp] theorem updateIrq_inbox (s : State) : (updateIrq s).inbox = s.inbox := rfl
@[simp] theorem updateIrq_result (s : State) : (updateIrq s).result = s.result := rfl
@[simp] theorem updateIrq_emitted (s : State) : (updateIrq s).emitted = s.emitted := rfl
@[simp] theorem updateIrq_chan (i : ChanIdx) (s : State) : (updateIrq s).chan i = s.chan i := rfl
@[simp] theorem updateIrq_event (e : Nat) (s : State) : (updateIrq s).event e = s.event e := rfl
@[simp] theorem updateIrq_pending (e : Nat) (s : State) : (updateIrq s).pending e = s.pending e := rfl
@[simp] theorem updateIrq_byteAt (a : Nat) (s : State) : (updateIrq s).byteAt a = s.byteAt a := rfl
@[simp] theorem updateIrq_memRead (a : Addr) (s : State) : (updateIrq s).memRead a = s.memRead a := rfl
@[simp] theorem updateIrq_tmr (t : BitVec 1) (s : State) : (updateIrq s).tmr t = s.tmr t := rfl

/-! ### `State.begin` -/

@[simp] theorem State.begin_cfg (l : List Stimulus) (s : State) : (s.begin l).cfg = s.cfg := rfl
@[simp] theorem State.begin_chans (l : List Stimulus) (s : State) : (s.begin l).chans = s.chans := rfl
@[simp] theorem State.begin_g (l : List Stimulus) (s : State) : (s.begin l).g = s.g := rfl
@[simp] theorem State.begin_tmr0 (l : List Stimulus) (s : State) : (s.begin l).tmr0 = s.tmr0 := rfl
@[simp] theorem State.begin_tmr1 (l : List Stimulus) (s : State) : (s.begin l).tmr1 = s.tmr1 := rfl
@[simp] theorem State.begin_dma (l : List Stimulus) (s : State) : (s.begin l).dma = s.dma := rfl
@[simp] theorem State.begin_now (l : List Stimulus) (s : State) : (s.begin l).now = s.now := rfl
@[simp] theorem State.begin_alarms (l : List Stimulus) (s : State) : (s.begin l).alarms = s.alarms := rfl
@[simp] theorem State.begin_nextAlarmId (l : List Stimulus) (s : State) : (s.begin l).nextAlarmId = s.nextAlarmId := rfl
@[simp] theorem State.begin_events (l : List Stimulus) (s : State) : (s.begin l).events = s.events := rfl
@[simp] theorem State.begin_fifo (l : List Stimulus) (s : State) : (s.begin l).fifo = s.fifo := rfl
@[simp] theorem State.begin_mem (l : List Stimulus) (s : State) : (s.begin l).mem = s.mem := rfl
@[simp] theorem State.begin_env (l : List Stimulus) (s : State) : (s.begin l).env = s.env := rfl
@[simp] theorem State.begin_inbox (l : List Stimulus) (s : State) : (s.begin l).inbox = l := rfl
@[simp] theorem State.begin_result (l : List Stimulus) (s : State) : (s.begin l).result = none := rfl
@[simp] theorem State.begin_emitted (l : List Stimulus) (s : State) : (s.begin l).emitted = [] := rfl
@[simp] theorem State.begin_chan (l : List Stimulus) (i : ChanIdx) (s : State) : (s.begin l).chan i = s.chan i := rfl
@[simp] theorem State.begin_event (l : List Stimulus) (e : Nat) (s : State) : (s.begin l).event e = s.event e := rfl
@[simp] theorem State.begin_pending (l : List Stimulus) (e : Nat) (s : State) : (s.begin l).pending e = s.pending e := rfl
@[simp] theorem State.begin_byteAt (l : List Stimulus) (a : Nat) (s : State) : (s.begin l).byteAt a = s.byteAt a := rfl
@[simp] theorem State.begin_memRead (l : List Stimulus) (a : Addr) (s : State) : (s.begin l).memRead a = s.memRead a := rfl
@[simp] theorem State.begin_tmr (l : List Stimulus) (t : BitVec 1) (s : State) : (s.begin l).tmr t = s.tmr t := rfl
@[simp] theorem State.begin_sel (l : List Stimulus) (s : State) : (s.begin l).sel = s.sel := rfl
@[simp] theorem State.begin_selChan (l : List Stimulus) (s : State) : (s.begin l).selChan = s.selChan := rfl

/-! ### `State.present` -/

@[simp] theorem State.present_cfg (w : CmdWord) (s : State) : (s.present w).cfg = s.cfg := rfl
@[simp] theorem State.present_chans (w : CmdWord) (s : State) : (s.present w).chans = s.chans := rfl
@[simp] theorem State.present_g (w : CmdWord) (s : State) : (s.present w).g = s.g := rfl
@[simp] theorem State.present_tmr0 (w : CmdWord) (s : State) : (s.present w).tmr0 = s.tmr0 := rfl
@[simp] theorem State.present_tmr1 (w : CmdWord) (s : State) : (s.present w).tmr1 = s.tmr1 := rfl
@[simp] theorem State.present_dma (w : CmdWord) (s : State) : (s.present w).dma = s.dma := rfl
@[simp] theorem State.present_now (w : CmdWord) (s : State) : (s.present w).now = s.now := rfl
@[simp] theorem State.present_alarms (w : CmdWord) (s : State) : (s.present w).alarms = s.alarms := rfl
@[simp] theorem State.present_nextAlarmId (w : CmdWord) (s : State) : (s.present w).nextAlarmId = s.nextAlarmId := rfl
@[simp] theorem State.present_events (w : CmdWord) (s : State) : (s.present w).events = s.events := rfl
@[simp] theorem State.present_fifo (w : CmdWord) (s : State) : (s.present w).fifo = s.fifo := rfl
@[simp] theorem State.present_mem (w : CmdWord) (s : State) : (s.present w).mem = s.mem := rfl
@[simp] theorem State.present_env (w : CmdWord) (s : State) : (s.present w).env = s.env := rfl
@[simp] theorem State.present_inbox (w : CmdWord) (s : State) : (s.present w).inbox = .word w :: s.inbox := rfl
@[simp] theorem State.present_result (w : CmdWord) (s : State) : (s.present w).result = s.result := rfl
@[simp] theorem State.present_emitted (w : CmdWord) (s : State) : (s.present w).emitted = s.emitted := rfl
@[simp] theorem State.present_chan (w : CmdWord) (i : ChanIdx) (s : State) : (s.present w).chan i = s.chan i := rfl
@[simp] theorem State.present_event (w : CmdWord) (e : Nat) (s : State) : (s.present w).event e = s.event e := rfl
@[simp] theorem State.present_pending (w : CmdWord) (e : Nat) (s : State) : (s.present w).pending e = s.pending e := rfl
@[simp] theorem State.present_byteAt (w : CmdWord) (a : Nat) (s : State) : (s.present w).byteAt a = s.byteAt a := rfl
@[simp] theorem State.present_memRead (w : CmdWord) (a : Addr) (s : State) : (s.present w).memRead a = s.memRead a := rfl
@[simp] theorem State.present_tmr (w : CmdWord) (t : BitVec 1) (s : State) : (s.present w).tmr t = s.tmr t := rfl
@[simp] theorem State.present_sel (w : CmdWord) (s : State) : (s.present w).sel = s.sel := rfl
@[simp] theorem State.present_selChan (w : CmdWord) (s : State) : (s.present w).selChan = s.selChan := rfl

end Sys2Proof.Machine
end

