-- ==== Sys2Proof/Laws/Memory.lean ====
section
/-! SUPPORT. The laws of byte stores: read after write, and the canonical form that every operation keeps. -/

namespace Sys2Proof.Machine

theorem Memory.read_erase_self (f : Fill) (m : Memory) (a : Nat) :
    Memory.read f (Memory.erase m a) a = fillByte f a := by
  induction m with
  | nil => rfl
  | cons c m ih =>
    obtain ⟨b, v⟩ := c
    by_cases h : b = a
    · simpa [Memory.erase, h] using ih
    · simpa [Memory.erase, h, Memory.read, Ne.symm h] using ih

theorem Memory.read_erase_ne (f : Fill) (m : Memory) {a b : Nat} (h : b ≠ a) :
    Memory.read f (Memory.erase m a) b = Memory.read f m b := by
  induction m with
  | nil => rfl
  | cons c m ih =>
    obtain ⟨k, v⟩ := c
    simp only [Memory.erase] at ih
    by_cases hk : k = a
    · subst hk; simp [Memory.erase, Memory.read, h, ih]
    · simp [Memory.erase, Memory.read, hk, ih]

theorem Memory.read_insert (f : Fill) (m : Memory) (a b : Nat) (v : Byte) (h : ∀ c ∈ m, c.1 ≠ a) :
    Memory.read f (Memory.insert a v m) b = if b = a then v else Memory.read f m b := by
  induction m with
  | nil => simp [Memory.insert, Memory.read]
  | cons c m ih =>
    obtain ⟨k, w⟩ := c
    have hk : k ≠ a := h (k, w) (by simp)
    have := ih (fun c hc => h c (by simp [hc]))
    simp only [Memory.insert]
    split
    · simp only [Memory.read, this]
      by_cases hb : b = k
      · subst hb; simp [hk]
      · simp [hb]
    · simp [Memory.read]

theorem Memory.not_mem_erase (m : Memory) (a : Nat) : ∀ c ∈ Memory.erase m a, c.1 ≠ a := by
  intro c hc
  simpa [Memory.erase] using (List.mem_filter.mp hc).2

/-- Reading after writing: the written byte at its address, every other byte as before. -/
theorem Memory.read_write (f : Fill) (m : Memory) (a b : Nat) (v : Byte) :
    Memory.read f (Memory.write f m a v) b = if b = a then v else Memory.read f m b := by
  unfold Memory.write
  split
  · next h =>
    by_cases hb : b = a
    · subst hb; simp [Memory.read_erase_self, h]
    · simp [hb, Memory.read_erase_ne]
  · rw [Memory.read_insert _ _ _ _ _ (Memory.not_mem_erase m a)]
    by_cases hb : b = a
    · simp [hb]
    · simp [hb, Memory.read_erase_ne]

@[simp] theorem Memory.read_write_self (f : Fill) (m : Memory) (a : Nat) (v : Byte) :
    Memory.read f (Memory.write f m a v) a = v := by simp [Memory.read_write]

theorem Memory.read_write_ne (f : Fill) (m : Memory) {a b : Nat} (v : Byte) (h : b ≠ a) :
    Memory.read f (Memory.write f m a v) b = Memory.read f m b := by simp [Memory.read_write, h]

theorem Memory.mem_insert {a : Nat} {v : Byte} {m : Memory} {c : Host.Cell} :
    c ∈ Memory.insert a v m ↔ c = (a, v) ∨ c ∈ m := by
  induction m with
  | nil => simp [Memory.insert]
  | cons d m ih =>
    simp only [Memory.insert]
    split
    · simp only [List.mem_cons, ih]; tauto
    · simp

theorem Memory.insert_rising {a : Nat} {v : Byte} {m : Memory} (h : m.Pairwise (fun x y => x.1 < y.1))
    (hne : ∀ c ∈ m, c.1 ≠ a) : (Memory.insert a v m).Pairwise (fun x y => x.1 < y.1) := by
  induction m with
  | nil => simp [Memory.insert]
  | cons d m ih =>
    obtain ⟨hd, hm⟩ := List.pairwise_cons.mp h
    have hda : d.1 ≠ a := hne d (by simp)
    simp only [Memory.insert]
    split
    · next hlt =>
      refine List.pairwise_cons.mpr ⟨fun c hc => ?_, ih hm (fun c hc => hne c (by simp [hc]))⟩
      rcases Memory.mem_insert.mp hc with rfl | hc
      · exact hlt
      · exact hd c hc
    · next hnlt =>
      refine List.pairwise_cons.mpr ⟨fun c hc => ?_, h⟩
      rcases List.mem_cons.mp hc with rfl | hc
      · simp only; omega
      · have := hd c hc; simp only; omega

/-- A write keeps the canonical form. -/
theorem Memory.write_wf {f : Fill} {size : Nat} {m : Memory} {a : Nat} (v : Byte)
    (h : Memory.WF f size m) (ha : a < size) : Memory.WF f size (Memory.write f m a v) := by
  obtain ⟨hp, hc⟩ := h
  have he : (Memory.erase m a).Pairwise (fun x y => x.1 < y.1) := hp.filter _
  have hec : ∀ c ∈ Memory.erase m a, c.1 < size ∧ c.2 ≠ fillByte f c.1 :=
    fun c h => hc c (List.mem_filter.mp h).1
  unfold Memory.write
  split
  · exact ⟨he, hec⟩
  · next hv =>
    refine ⟨Memory.insert_rising he (Memory.not_mem_erase m a), fun c h => ?_⟩
    rcases Memory.mem_insert.mp h with rfl | h
    · exact ⟨ha, hv⟩
    · exact hec c h

theorem Memory.nil_wf (f : Fill) (size : Nat) : Memory.WF f size [] := by simp [Memory.WF]

/-- Device memory is canonical right after boot, whatever the configuration. -/
theorem State.boot_mem_wf (c : Config) :
    Memory.WF (State.boot c).cfg.memFill (2 ^ (State.boot c).cfg.memAddrBits) (State.boot c).mem :=
  Memory.nil_wf _ _

/-- Device memory is canonical at reset. -/
theorem State.reset_mem_wf :
    Memory.WF State.reset.cfg.memFill (2 ^ State.reset.cfg.memAddrBits) State.reset.mem :=
  State.boot_mem_wf vectorConfig

theorem maskAddr_lt (c : Config) (a : Addr) : maskAddr c a < 2 ^ c.memAddrBits :=
  Nat.mod_lt _ (Nat.two_pow_pos _)

/-- A device-memory write changes one byte. -/
theorem State.byteAt_memWrite (a : Addr) (v : Byte) (s : State) (b : Nat) :
    (s.memWrite a v).byteAt b = if b = maskAddr s.cfg a then v else s.byteAt b := by
  simp [State.byteAt, Memory.read_write]

/-- A device-memory write keeps the canonical form. -/
theorem State.memWrite_wf (a : Addr) (v : Byte) {s : State}
    (h : Memory.WF s.cfg.memFill (2 ^ s.cfg.memAddrBits) s.mem) :
    Memory.WF s.cfg.memFill (2 ^ s.cfg.memAddrBits) (s.memWrite a v).mem :=
  Memory.write_wf v h (maskAddr_lt _ _)

end Sys2Proof.Machine
end

