-- ==== Sys2Proof/Laws/Frames.lean ====
section
/-! SUPPORT. The frames of the shared operations: one lemma per field that an operation leaves as it was. -/

namespace Sys2Proof.Machine

/-! ### `undefinedCommand` -/

@[simp] theorem undefinedCommand_cfg  (s : State) : (undefinedCommand s).cfg = s.cfg := by
  simp [undefinedCommand]
@[simp] theorem undefinedCommand_chans  (s : State) : (undefinedCommand s).chans = s.chans := by
  simp [undefinedCommand]
@[simp] theorem undefinedCommand_g  (s : State) : (undefinedCommand s).g = s.g := by
  simp [undefinedCommand]
@[simp] theorem undefinedCommand_tmr0  (s : State) : (undefinedCommand s).tmr0 = s.tmr0 := by
  simp [undefinedCommand]
@[simp] theorem undefinedCommand_tmr1  (s : State) : (undefinedCommand s).tmr1 = s.tmr1 := by
  simp [undefinedCommand]
@[simp] theorem undefinedCommand_dma  (s : State) : (undefinedCommand s).dma = s.dma := by
  simp [undefinedCommand]
@[simp] theorem undefinedCommand_now  (s : State) : (undefinedCommand s).now = s.now := by
  simp [undefinedCommand]
@[simp] theorem undefinedCommand_alarms  (s : State) : (undefinedCommand s).alarms = s.alarms := by
  simp [undefinedCommand]
@[simp] theorem undefinedCommand_nextAlarmId  (s : State) : (undefinedCommand s).nextAlarmId = s.nextAlarmId := by
  simp [undefinedCommand]
@[simp] theorem undefinedCommand_events  (s : State) : (undefinedCommand s).events = s.events := by
  simp [undefinedCommand]
@[simp] theorem undefinedCommand_fifo  (s : State) : (undefinedCommand s).fifo = s.fifo := by
  simp [undefinedCommand]
@[simp] theorem undefinedCommand_mem  (s : State) : (undefinedCommand s).mem = s.mem := by
  simp [undefinedCommand]
@[simp] theorem undefinedCommand_env  (s : State) : (undefinedCommand s).env = s.env := by
  simp [undefinedCommand]
@[simp] theorem undefinedCommand_inbox  (s : State) : (undefinedCommand s).inbox = s.inbox := by
  simp [undefinedCommand]
@[simp] theorem undefinedCommand_chan  (i : ChanIdx) (s : State) : (undefinedCommand s).chan i = s.chan i := by simp [State.chan]
@[simp] theorem undefinedCommand_event  (k : Nat) (s : State) : (undefinedCommand s).event k = s.event k := by simp [State.event]
@[simp] theorem undefinedCommand_pending  (k : Nat) (s : State) : (undefinedCommand s).pending k = s.pending k := by simp [State.pending, State.event]
@[simp] theorem undefinedCommand_byteAt  (b : Nat) (s : State) : (undefinedCommand s).byteAt b = s.byteAt b := by simp [State.byteAt]
@[simp] theorem undefinedCommand_memRead  (b : Addr) (s : State) : (undefinedCommand s).memRead b = s.memRead b := by simp [State.memRead, State.byteAt]
@[simp] theorem undefinedCommand_tmr  (u : BitVec 1) (s : State) : (undefinedCommand s).tmr u = s.tmr u := by simp [State.tmr]
@[simp] theorem undefinedCommand_sel   (s : State) : (undefinedCommand s).sel = s.sel := by simp [State.sel]
@[simp] theorem undefinedCommand_selChan   (s : State) : (undefinedCommand s).selChan = s.selChan := by simp [State.selChan, State.chan, State.sel]

/-! ### `schedRemove` -/

@[simp] theorem schedRemove_cfg (e : Nat) (s : State) : (schedRemove e s).cfg = s.cfg := by
  unfold schedRemove; split <;> simp
@[simp] theorem schedRemove_chans (e : Nat) (s : State) : (schedRemove e s).chans = s.chans := by
  unfold schedRemove; split <;> simp
@[simp] theorem schedRemove_g (e : Nat) (s : State) : (schedRemove e s).g = s.g := by
  unfold schedRemove; split <;> simp
@[simp] theorem schedRemove_tmr0 (e : Nat) (s : State) : (schedRemove e s).tmr0 = s.tmr0 := by
  unfold schedRemove; split <;> simp
@[simp] theorem schedRemove_tmr1 (e : Nat) (s : State) : (schedRemove e s).tmr1 = s.tmr1 := by
  unfold schedRemove; split <;> simp
@[simp] theorem schedRemove_dma (e : Nat) (s : State) : (schedRemove e s).dma = s.dma := by
  unfold schedRemove; split <;> simp
@[simp] theorem schedRemove_now (e : Nat) (s : State) : (schedRemove e s).now = s.now := by
  unfold schedRemove; split <;> simp
@[simp] theorem schedRemove_nextAlarmId (e : Nat) (s : State) : (schedRemove e s).nextAlarmId = s.nextAlarmId := by
  unfold schedRemove; split <;> simp
@[simp] theorem schedRemove_fifo (e : Nat) (s : State) : (schedRemove e s).fifo = s.fifo := by
  unfold schedRemove; split <;> simp
@[simp] theorem schedRemove_mem (e : Nat) (s : State) : (schedRemove e s).mem = s.mem := by
  unfold schedRemove; split <;> simp
@[simp] theorem schedRemove_env (e : Nat) (s : State) : (schedRemove e s).env = s.env := by
  unfold schedRemove; split <;> simp
@[simp] theorem schedRemove_inbox (e : Nat) (s : State) : (schedRemove e s).inbox = s.inbox := by
  unfold schedRemove; split <;> simp
@[simp] theorem schedRemove_result (e : Nat) (s : State) : (schedRemove e s).result = s.result := by
  unfold schedRemove; split <;> simp
@[simp] theorem schedRemove_emitted (e : Nat) (s : State) : (schedRemove e s).emitted = s.emitted := by
  unfold schedRemove; split <;> simp
@[simp] theorem schedRemove_chan (e : Nat) (i : ChanIdx) (s : State) : (schedRemove e s).chan i = s.chan i := by simp [State.chan]
@[simp] theorem schedRemove_byteAt (e : Nat) (b : Nat) (s : State) : (schedRemove e s).byteAt b = s.byteAt b := by simp [State.byteAt]
@[simp] theorem schedRemove_memRead (e : Nat) (b : Addr) (s : State) : (schedRemove e s).memRead b = s.memRead b := by simp [State.memRead, State.byteAt]
@[simp] theorem schedRemove_tmr (e : Nat) (u : BitVec 1) (s : State) : (schedRemove e s).tmr u = s.tmr u := by simp [State.tmr]
@[simp] theorem schedRemove_sel (e : Nat)  (s : State) : (schedRemove e s).sel = s.sel := by simp [State.sel]
@[simp] theorem schedRemove_selChan (e : Nat)  (s : State) : (schedRemove e s).selChan = s.selChan := by simp [State.selChan, State.chan, State.sel]

/-! ### `schedAdd` -/

@[simp] theorem schedAdd_cfg (e : Nat) (d v : BitVec 32) (s : State) : (schedAdd e d v s).cfg = s.cfg := by
  unfold schedAdd; dsimp only; split <;> simp
@[simp] theorem schedAdd_chans (e : Nat) (d v : BitVec 32) (s : State) : (schedAdd e d v s).chans = s.chans := by
  unfold schedAdd; dsimp only; split <;> simp
@[simp] theorem schedAdd_g (e : Nat) (d v : BitVec 32) (s : State) : (schedAdd e d v s).g = s.g := by
  unfold schedAdd; dsimp only; split <;> simp
@[simp] theorem schedAdd_tmr0 (e : Nat) (d v : BitVec 32) (s : State) : (schedAdd e d v s).tmr0 = s.tmr0 := by
  unfold schedAdd; dsimp only; split <;> simp
@[simp] theorem schedAdd_tmr1 (e : Nat) (d v : BitVec 32) (s : State) : (schedAdd e d v s).tmr1 = s.tmr1 := by
  unfold schedAdd; dsimp only; split <;> simp
@[simp] theorem schedAdd_dma (e : Nat) (d v : BitVec 32) (s : State) : (schedAdd e d v s).dma = s.dma := by
  unfold schedAdd; dsimp only; split <;> simp
@[simp] theorem schedAdd_now (e : Nat) (d v : BitVec 32) (s : State) : (schedAdd e d v s).now = s.now := by
  unfold schedAdd; dsimp only; split <;> simp
@[simp] theorem schedAdd_fifo (e : Nat) (d v : BitVec 32) (s : State) : (schedAdd e d v s).fifo = s.fifo := by
  unfold schedAdd; dsimp only; split <;> simp
@[simp] theorem schedAdd_mem (e : Nat) (d v : BitVec 32) (s : State) : (schedAdd e d v s).mem = s.mem := by
  unfold schedAdd; dsimp only; split <;> simp
@[simp] theorem schedAdd_env (e : Nat) (d v : BitVec 32) (s : State) : (schedAdd e d v s).env = s.env := by
  unfold schedAdd; dsimp only; split <;> simp
@[simp] theorem schedAdd_inbox (e : Nat) (d v : BitVec 32) (s : State) : (schedAdd e d v s).inbox = s.inbox := by
  unfold schedAdd; dsimp only; split <;> simp
@[simp] theorem schedAdd_result (e : Nat) (d v : BitVec 32) (s : State) : (schedAdd e d v s).result = s.result := by
  unfold schedAdd; dsimp only; split <;> simp
@[simp] theorem schedAdd_chan (e : Nat) (d v : BitVec 32) (i : ChanIdx) (s : State) : (schedAdd e d v s).chan i = s.chan i := by simp [State.chan]
@[simp] theorem schedAdd_byteAt (e : Nat) (d v : BitVec 32) (b : Nat) (s : State) : (schedAdd e d v s).byteAt b = s.byteAt b := by simp [State.byteAt]
@[simp] theorem schedAdd_memRead (e : Nat) (d v : BitVec 32) (b : Addr) (s : State) : (schedAdd e d v s).memRead b = s.memRead b := by simp [State.memRead, State.byteAt]
@[simp] theorem schedAdd_tmr (e : Nat) (d v : BitVec 32) (u : BitVec 1) (s : State) : (schedAdd e d v s).tmr u = s.tmr u := by simp [State.tmr]
@[simp] theorem schedAdd_sel (e : Nat) (d v : BitVec 32)  (s : State) : (schedAdd e d v s).sel = s.sel := by simp [State.sel]
@[simp] theorem schedAdd_selChan (e : Nat) (d v : BitVec 32)  (s : State) : (schedAdd e d v s).selChan = s.selChan := by simp [State.selChan, State.chan, State.sel]

/-! ### `clientCall` -/

@[simp] theorem clientCall_cfg (c : ClientCall) (s : State) : (clientCall c s).cfg = s.cfg := by
  unfold clientCall; split <;> split <;> simp
@[simp] theorem clientCall_chans (c : ClientCall) (s : State) : (clientCall c s).chans = s.chans := by
  unfold clientCall; split <;> split <;> simp
@[simp] theorem clientCall_g (c : ClientCall) (s : State) : (clientCall c s).g = s.g := by
  unfold clientCall; split <;> split <;> simp
@[simp] theorem clientCall_tmr0 (c : ClientCall) (s : State) : (clientCall c s).tmr0 = s.tmr0 := by
  unfold clientCall; split <;> split <;> simp
@[simp] theorem clientCall_tmr1 (c : ClientCall) (s : State) : (clientCall c s).tmr1 = s.tmr1 := by
  unfold clientCall; split <;> split <;> simp
@[simp] theorem clientCall_dma (c : ClientCall) (s : State) : (clientCall c s).dma = s.dma := by
  unfold clientCall; split <;> split <;> simp
@[simp] theorem clientCall_now (c : ClientCall) (s : State) : (clientCall c s).now = s.now := by
  unfold clientCall; split <;> split <;> simp
@[simp] theorem clientCall_fifo (c : ClientCall) (s : State) : (clientCall c s).fifo = s.fifo := by
  unfold clientCall; split <;> split <;> simp
@[simp] theorem clientCall_mem (c : ClientCall) (s : State) : (clientCall c s).mem = s.mem := by
  unfold clientCall; split <;> split <;> simp
@[simp] theorem clientCall_env (c : ClientCall) (s : State) : (clientCall c s).env = s.env := by
  unfold clientCall; split <;> split <;> simp
@[simp] theorem clientCall_inbox (c : ClientCall) (s : State) : (clientCall c s).inbox = s.inbox := by
  unfold clientCall; split <;> split <;> simp
@[simp] theorem clientCall_result (c : ClientCall) (s : State) : (clientCall c s).result = s.result := by
  unfold clientCall; split <;> split <;> simp
@[simp] theorem clientCall_chan (c : ClientCall) (i : ChanIdx) (s : State) : (clientCall c s).chan i = s.chan i := by simp [State.chan]
@[simp] theorem clientCall_byteAt (c : ClientCall) (b : Nat) (s : State) : (clientCall c s).byteAt b = s.byteAt b := by simp [State.byteAt]
@[simp] theorem clientCall_memRead (c : ClientCall) (b : Addr) (s : State) : (clientCall c s).memRead b = s.memRead b := by simp [State.memRead, State.byteAt]
@[simp] theorem clientCall_tmr (c : ClientCall) (u : BitVec 1) (s : State) : (clientCall c s).tmr u = s.tmr u := by simp [State.tmr]
@[simp] theorem clientCall_sel (c : ClientCall)  (s : State) : (clientCall c s).sel = s.sel := by simp [State.sel]
@[simp] theorem clientCall_selChan (c : ClientCall)  (s : State) : (clientCall c s).selChan = s.selChan := by simp [State.selChan, State.chan, State.sel]

/-! ### `clientCalls` -/

@[simp] theorem clientCalls_cfg (l : List ClientCall) (s : State) : (l.foldl (fun s c => clientCall c s) s).cfg = s.cfg := by
  induction l generalizing s with
  | nil => rfl
  | cons c l ih => simp [ih]
@[simp] theorem clientCalls_chans (l : List ClientCall) (s : State) : (l.foldl (fun s c => clientCall c s) s).chans = s.chans := by
  induction l generalizing s with
  | nil => rfl
  | cons c l ih => simp [ih]
@[simp] theorem clientCalls_g (l : List ClientCall) (s : State) : (l.foldl (fun s c => clientCall c s) s).g = s.g := by
  induction l generalizing s with
  | nil => rfl
  | cons c l ih => simp [ih]
@[simp] theorem clientCalls_tmr0 (l : List ClientCall) (s : State) : (l.foldl (fun s c => clientCall c s) s).tmr0 = s.tmr0 := by
  induction l generalizing s with
  | nil => rfl
  | cons c l ih => simp [ih]
@[simp] theorem clientCalls_tmr1 (l : List ClientCall) (s : State) : (l.foldl (fun s c => clientCall c s) s).tmr1 = s.tmr1 := by
  induction l generalizing s with
  | nil => rfl
  | cons c l ih => simp [ih]
@[simp] theorem clientCalls_dma (l : List ClientCall) (s : State) : (l.foldl (fun s c => clientCall c s) s).dma = s.dma := by
  induction l generalizing s with
  | nil => rfl
  | cons c l ih => simp [ih]
@[simp] theorem clientCalls_now (l : List ClientCall) (s : State) : (l.foldl (fun s c => clientCall c s) s).now = s.now := by
  induction l generalizing s with
  | nil => rfl
  | cons c l ih => simp [ih]
@[simp] theorem clientCalls_fifo (l : List ClientCall) (s : State) : (l.foldl (fun s c => clientCall c s) s).fifo = s.fifo := by
  induction l generalizing s with
  | nil => rfl
  | cons c l ih => simp [ih]
@[simp] theorem clientCalls_mem (l : List ClientCall) (s : State) : (l.foldl (fun s c => clientCall c s) s).mem = s.mem := by
  induction l generalizing s with
  | nil => rfl
  | cons c l ih => simp [ih]
@[simp] theorem clientCalls_env (l : List ClientCall) (s : State) : (l.foldl (fun s c => clientCall c s) s).env = s.env := by
  induction l generalizing s with
  | nil => rfl
  | cons c l ih => simp [ih]
@[simp] theorem clientCalls_inbox (l : List ClientCall) (s : State) : (l.foldl (fun s c => clientCall c s) s).inbox = s.inbox := by
  induction l generalizing s with
  | nil => rfl
  | cons c l ih => simp [ih]
@[simp] theorem clientCalls_result (l : List ClientCall) (s : State) : (l.foldl (fun s c => clientCall c s) s).result = s.result := by
  induction l generalizing s with
  | nil => rfl
  | cons c l ih => simp [ih]
@[simp] theorem clientCalls_chan (l : List ClientCall) (i : ChanIdx) (s : State) : (l.foldl (fun s c => clientCall c s) s).chan i = s.chan i := by simp [State.chan]
@[simp] theorem clientCalls_byteAt (l : List ClientCall) (b : Nat) (s : State) : (l.foldl (fun s c => clientCall c s) s).byteAt b = s.byteAt b := by simp [State.byteAt]
@[simp] theorem clientCalls_memRead (l : List ClientCall) (b : Addr) (s : State) : (l.foldl (fun s c => clientCall c s) s).memRead b = s.memRead b := by simp [State.memRead, State.byteAt]
@[simp] theorem clientCalls_tmr (l : List ClientCall) (u : BitVec 1) (s : State) : (l.foldl (fun s c => clientCall c s) s).tmr u = s.tmr u := by simp [State.tmr]
@[simp] theorem clientCalls_sel (l : List ClientCall)  (s : State) : (l.foldl (fun s c => clientCall c s) s).sel = s.sel := by simp [State.sel]
@[simp] theorem clientCalls_selChan (l : List ClientCall)  (s : State) : (l.foldl (fun s c => clientCall c s) s).selChan = s.selChan := by simp [State.selChan, State.chan, State.sel]

/-! ### `dmaStart` -/

@[simp] theorem dmaStart_cfg (n : BitVec 32) (w : UnitWidth) (us : BitVec 32) (auto : Bool) (s : State) : (dmaStart n w us auto s).cfg = s.cfg := by
  unfold dmaStart; dsimp only; repeat' split
  all_goals simp
@[simp] theorem dmaStart_chans (n : BitVec 32) (w : UnitWidth) (us : BitVec 32) (auto : Bool) (s : State) : (dmaStart n w us auto s).chans = s.chans := by
  unfold dmaStart; dsimp only; repeat' split
  all_goals simp
@[simp] theorem dmaStart_g (n : BitVec 32) (w : UnitWidth) (us : BitVec 32) (auto : Bool) (s : State) : (dmaStart n w us auto s).g = s.g := by
  unfold dmaStart; dsimp only; repeat' split
  all_goals simp
@[simp] theorem dmaStart_tmr0 (n : BitVec 32) (w : UnitWidth) (us : BitVec 32) (auto : Bool) (s : State) : (dmaStart n w us auto s).tmr0 = s.tmr0 := by
  unfold dmaStart; dsimp only; repeat' split
  all_goals simp
@[simp] theorem dmaStart_tmr1 (n : BitVec 32) (w : UnitWidth) (us : BitVec 32) (auto : Bool) (s : State) : (dmaStart n w us auto s).tmr1 = s.tmr1 := by
  unfold dmaStart; dsimp only; repeat' split
  all_goals simp
@[simp] theorem dmaStart_now (n : BitVec 32) (w : UnitWidth) (us : BitVec 32) (auto : Bool) (s : State) : (dmaStart n w us auto s).now = s.now := by
  unfold dmaStart; dsimp only; repeat' split
  all_goals simp
@[simp] theorem dmaStart_fifo (n : BitVec 32) (w : UnitWidth) (us : BitVec 32) (auto : Bool) (s : State) : (dmaStart n w us auto s).fifo = s.fifo := by
  unfold dmaStart; dsimp only; repeat' split
  all_goals simp
@[simp] theorem dmaStart_mem (n : BitVec 32) (w : UnitWidth) (us : BitVec 32) (auto : Bool) (s : State) : (dmaStart n w us auto s).mem = s.mem := by
  unfold dmaStart; dsimp only; repeat' split
  all_goals simp
@[simp] theorem dmaStart_env (n : BitVec 32) (w : UnitWidth) (us : BitVec 32) (auto : Bool) (s : State) : (dmaStart n w us auto s).env = s.env := by
  unfold dmaStart; dsimp only; repeat' split
  all_goals simp
@[simp] theorem dmaStart_inbox (n : BitVec 32) (w : UnitWidth) (us : BitVec 32) (auto : Bool) (s : State) : (dmaStart n w us auto s).inbox = s.inbox := by
  unfold dmaStart; dsimp only; repeat' split
  all_goals simp
@[simp] theorem dmaStart_result (n : BitVec 32) (w : UnitWidth) (us : BitVec 32) (auto : Bool) (s : State) : (dmaStart n w us auto s).result = s.result := by
  unfold dmaStart; dsimp only; repeat' split
  all_goals simp
@[simp] theorem dmaStart_chan (n : BitVec 32) (w : UnitWidth) (us : BitVec 32) (auto : Bool) (i : ChanIdx) (s : State) : (dmaStart n w us auto s).chan i = s.chan i := by simp [State.chan]
@[simp] theorem dmaStart_byteAt (n : BitVec 32) (w : UnitWidth) (us : BitVec 32) (auto : Bool) (b : Nat) (s : State) : (dmaStart n w us auto s).byteAt b = s.byteAt b := by simp [State.byteAt]
@[simp] theorem dmaStart_memRead (n : BitVec 32) (w : UnitWidth) (us : BitVec 32) (auto : Bool) (b : Addr) (s : State) : (dmaStart n w us auto s).memRead b = s.memRead b := by simp [State.memRead, State.byteAt]
@[simp] theorem dmaStart_tmr (n : BitVec 32) (w : UnitWidth) (us : BitVec 32) (auto : Bool) (u : BitVec 1) (s : State) : (dmaStart n w us auto s).tmr u = s.tmr u := by simp [State.tmr]
@[simp] theorem dmaStart_sel (n : BitVec 32) (w : UnitWidth) (us : BitVec 32) (auto : Bool)  (s : State) : (dmaStart n w us auto s).sel = s.sel := by simp [State.sel]
@[simp] theorem dmaStart_selChan (n : BitVec 32) (w : UnitWidth) (us : BitVec 32) (auto : Bool)  (s : State) : (dmaStart n w us auto s).selChan = s.selChan := by simp [State.selChan, State.chan, State.sel]

/-! ### `dmaCancel` -/

@[simp] theorem dmaCancel_cfg  (s : State) : (dmaCancel s).cfg = s.cfg := by
  simp [dmaCancel]
@[simp] theorem dmaCancel_chans  (s : State) : (dmaCancel s).chans = s.chans := by
  simp [dmaCancel]
@[simp] theorem dmaCancel_g  (s : State) : (dmaCancel s).g = s.g := by
  simp [dmaCancel]
@[simp] theorem dmaCancel_tmr0  (s : State) : (dmaCancel s).tmr0 = s.tmr0 := by
  simp [dmaCancel]
@[simp] theorem dmaCancel_tmr1  (s : State) : (dmaCancel s).tmr1 = s.tmr1 := by
  simp [dmaCancel]
@[simp] theorem dmaCancel_now  (s : State) : (dmaCancel s).now = s.now := by
  simp [dmaCancel]
@[simp] theorem dmaCancel_nextAlarmId  (s : State) : (dmaCancel s).nextAlarmId = s.nextAlarmId := by
  simp [dmaCancel]
@[simp] theorem dmaCancel_fifo  (s : State) : (dmaCancel s).fifo = s.fifo := by
  simp [dmaCancel]
@[simp] theorem dmaCancel_mem  (s : State) : (dmaCancel s).mem = s.mem := by
  simp [dmaCancel]
@[simp] theorem dmaCancel_env  (s : State) : (dmaCancel s).env = s.env := by
  simp [dmaCancel]
@[simp] theorem dmaCancel_inbox  (s : State) : (dmaCancel s).inbox = s.inbox := by
  simp [dmaCancel]
@[simp] theorem dmaCancel_result  (s : State) : (dmaCancel s).result = s.result := by
  simp [dmaCancel]
@[simp] theorem dmaCancel_emitted  (s : State) : (dmaCancel s).emitted = s.emitted := by
  simp [dmaCancel]
@[simp] theorem dmaCancel_chan  (i : ChanIdx) (s : State) : (dmaCancel s).chan i = s.chan i := by simp [State.chan]
@[simp] theorem dmaCancel_byteAt  (b : Nat) (s : State) : (dmaCancel s).byteAt b = s.byteAt b := by simp [State.byteAt]
@[simp] theorem dmaCancel_memRead  (b : Addr) (s : State) : (dmaCancel s).memRead b = s.memRead b := by simp [State.memRead, State.byteAt]
@[simp] theorem dmaCancel_tmr  (u : BitVec 1) (s : State) : (dmaCancel s).tmr u = s.tmr u := by simp [State.tmr]
@[simp] theorem dmaCancel_sel   (s : State) : (dmaCancel s).sel = s.sel := by simp [State.sel]
@[simp] theorem dmaCancel_selChan   (s : State) : (dmaCancel s).selChan = s.selChan := by simp [State.selChan, State.chan, State.sel]

/-! ### `drawHostByte` -/

@[simp] theorem drawHostByte_cfg  (s : State) : (drawHostByte s).2.cfg = s.cfg := by
  unfold drawHostByte; split <;> rfl
@[simp] theorem drawHostByte_chans  (s : State) : (drawHostByte s).2.chans = s.chans := by
  unfold drawHostByte; split <;> rfl
@[simp] theorem drawHostByte_g  (s : State) : (drawHostByte s).2.g = s.g := by
  unfold drawHostByte; split <;> rfl
@[simp] theorem drawHostByte_tmr0  (s : State) : (drawHostByte s).2.tmr0 = s.tmr0 := by
  unfold drawHostByte; split <;> rfl
@[simp] theorem drawHostByte_tmr1  (s : State) : (drawHostByte s).2.tmr1 = s.tmr1 := by
  unfold drawHostByte; split <;> rfl
@[simp] theorem drawHostByte_dma  (s : State) : (drawHostByte s).2.dma = s.dma := by
  unfold drawHostByte; split <;> rfl
@[simp] theorem drawHostByte_now  (s : State) : (drawHostByte s).2.now = s.now := by
  unfold drawHostByte; split <;> rfl
@[simp] theorem drawHostByte_alarms  (s : State) : (drawHostByte s).2.alarms = s.alarms := by
  unfold drawHostByte; split <;> rfl
@[simp] theorem drawHostByte_nextAlarmId  (s : State) : (drawHostByte s).2.nextAlarmId = s.nextAlarmId := by
  unfold drawHostByte; split <;> rfl
@[simp] theorem drawHostByte_events  (s : State) : (drawHostByte s).2.events = s.events := by
  unfold drawHostByte; split <;> rfl
@[simp] theorem drawHostByte_fifo  (s : State) : (drawHostByte s).2.fifo = s.fifo := by
  unfold drawHostByte; split <;> rfl
@[simp] theorem drawHostByte_mem  (s : State) : (drawHostByte s).2.mem = s.mem := by
  unfold drawHostByte; split <;> rfl
@[simp] theorem drawHostByte_inbox  (s : State) : (drawHostByte s).2.inbox = s.inbox := by
  unfold drawHostByte; split <;> rfl
@[simp] theorem drawHostByte_result  (s : State) : (drawHostByte s).2.result = s.result := by
  unfold drawHostByte; split <;> rfl
@[simp] theorem drawHostByte_emitted  (s : State) : (drawHostByte s).2.emitted = s.emitted := by
  unfold drawHostByte; split <;> rfl
@[simp] theorem drawHostByte_chan  (i : ChanIdx) (s : State) : (drawHostByte s).2.chan i = s.chan i := by simp [State.chan]
@[simp] theorem drawHostByte_event  (k : Nat) (s : State) : (drawHostByte s).2.event k = s.event k := by simp [State.event]
@[simp] theorem drawHostByte_pending  (k : Nat) (s : State) : (drawHostByte s).2.pending k = s.pending k := by simp [State.pending, State.event]
@[simp] theorem drawHostByte_byteAt  (b : Nat) (s : State) : (drawHostByte s).2.byteAt b = s.byteAt b := by simp [State.byteAt]
@[simp] theorem drawHostByte_memRead  (b : Addr) (s : State) : (drawHostByte s).2.memRead b = s.memRead b := by simp [State.memRead, State.byteAt]
@[simp] theorem drawHostByte_tmr  (u : BitVec 1) (s : State) : (drawHostByte s).2.tmr u = s.tmr u := by simp [State.tmr]
@[simp] theorem drawHostByte_sel   (s : State) : (drawHostByte s).2.sel = s.sel := by simp [State.sel]
@[simp] theorem drawHostByte_selChan   (s : State) : (drawHostByte s).2.selChan = s.selChan := by simp [State.selChan, State.chan, State.sel]

/-! ### `transferIn` -/

@[simp] theorem transferIn_cfg  (s : State) : (transferIn s).cfg = s.cfg := by
  unfold transferIn; dsimp only; split <;> simp
@[simp] theorem transferIn_chans  (s : State) : (transferIn s).chans = s.chans := by
  unfold transferIn; dsimp only; split <;> simp
@[simp] theorem transferIn_g  (s : State) : (transferIn s).g = s.g := by
  unfold transferIn; dsimp only; split <;> simp
@[simp] theorem transferIn_tmr0  (s : State) : (transferIn s).tmr0 = s.tmr0 := by
  unfold transferIn; dsimp only; split <;> simp
@[simp] theorem transferIn_tmr1  (s : State) : (transferIn s).tmr1 = s.tmr1 := by
  unfold transferIn; dsimp only; split <;> simp
@[simp] theorem transferIn_dma  (s : State) : (transferIn s).dma = s.dma := by
  unfold transferIn; dsimp only; split <;> simp
@[simp] theorem transferIn_now  (s : State) : (transferIn s).now = s.now := by
  unfold transferIn; dsimp only; split <;> simp
@[simp] theorem transferIn_alarms  (s : State) : (transferIn s).alarms = s.alarms := by
  unfold transferIn; dsimp only; split <;> simp
@[simp] theorem transferIn_nextAlarmId  (s : State) : (transferIn s).nextAlarmId = s.nextAlarmId := by
  unfold transferIn; dsimp only; split <;> simp
@[simp] theorem transferIn_events  (s : State) : (transferIn s).events = s.events := by
  unfold transferIn; dsimp only; split <;> simp
@[simp] theorem transferIn_fifo  (s : State) : (transferIn s).fifo = s.fifo := by
  unfold transferIn; dsimp only; split <;> simp
@[simp] theorem transferIn_inbox  (s : State) : (transferIn s).inbox = s.inbox := by
  unfold transferIn; dsimp only; split <;> simp
@[simp] theorem transferIn_result  (s : State) : (transferIn s).result = s.result := by
  unfold transferIn; dsimp only; split <;> simp
@[simp] theorem transferIn_chan  (i : ChanIdx) (s : State) : (transferIn s).chan i = s.chan i := by simp [State.chan]
@[simp] theorem transferIn_event  (k : Nat) (s : State) : (transferIn s).event k = s.event k := by simp [State.event]
@[simp] theorem transferIn_pending  (k : Nat) (s : State) : (transferIn s).pending k = s.pending k := by simp [State.pending, State.event]
@[simp] theorem transferIn_tmr  (u : BitVec 1) (s : State) : (transferIn s).tmr u = s.tmr u := by simp [State.tmr]
@[simp] theorem transferIn_sel   (s : State) : (transferIn s).sel = s.sel := by simp [State.sel]
@[simp] theorem transferIn_selChan   (s : State) : (transferIn s).selChan = s.selChan := by simp [State.selChan, State.chan, State.sel]

/-! ### `transferOut` -/

@[simp] theorem transferOut_cfg  (s : State) : (transferOut s).cfg = s.cfg := by
  unfold transferOut; dsimp only; split <;> simp
@[simp] theorem transferOut_chans  (s : State) : (transferOut s).chans = s.chans := by
  unfold transferOut; dsimp only; split <;> simp
@[simp] theorem transferOut_g  (s : State) : (transferOut s).g = s.g := by
  unfold transferOut; dsimp only; split <;> simp
@[simp] theorem transferOut_tmr0  (s : State) : (transferOut s).tmr0 = s.tmr0 := by
  unfold transferOut; dsimp only; split <;> simp
@[simp] theorem transferOut_tmr1  (s : State) : (transferOut s).tmr1 = s.tmr1 := by
  unfold transferOut; dsimp only; split <;> simp
@[simp] theorem transferOut_dma  (s : State) : (transferOut s).dma = s.dma := by
  unfold transferOut; dsimp only; split <;> simp
@[simp] theorem transferOut_now  (s : State) : (transferOut s).now = s.now := by
  unfold transferOut; dsimp only; split <;> simp
@[simp] theorem transferOut_alarms  (s : State) : (transferOut s).alarms = s.alarms := by
  unfold transferOut; dsimp only; split <;> simp
@[simp] theorem transferOut_nextAlarmId  (s : State) : (transferOut s).nextAlarmId = s.nextAlarmId := by
  unfold transferOut; dsimp only; split <;> simp
@[simp] theorem transferOut_events  (s : State) : (transferOut s).events = s.events := by
  unfold transferOut; dsimp only; split <;> simp
@[simp] theorem transferOut_fifo  (s : State) : (transferOut s).fifo = s.fifo := by
  unfold transferOut; dsimp only; split <;> simp
@[simp] theorem transferOut_mem  (s : State) : (transferOut s).mem = s.mem := by
  unfold transferOut; dsimp only; split <;> simp
@[simp] theorem transferOut_env  (s : State) : (transferOut s).env = s.env := by
  unfold transferOut; dsimp only; split <;> simp
@[simp] theorem transferOut_inbox  (s : State) : (transferOut s).inbox = s.inbox := by
  unfold transferOut; dsimp only; split <;> simp
@[simp] theorem transferOut_result  (s : State) : (transferOut s).result = s.result := by
  unfold transferOut; dsimp only; split <;> simp
@[simp] theorem transferOut_chan  (i : ChanIdx) (s : State) : (transferOut s).chan i = s.chan i := by simp [State.chan]
@[simp] theorem transferOut_event  (k : Nat) (s : State) : (transferOut s).event k = s.event k := by simp [State.event]
@[simp] theorem transferOut_pending  (k : Nat) (s : State) : (transferOut s).pending k = s.pending k := by simp [State.pending, State.event]
@[simp] theorem transferOut_byteAt  (b : Nat) (s : State) : (transferOut s).byteAt b = s.byteAt b := by simp [State.byteAt]
@[simp] theorem transferOut_memRead  (b : Addr) (s : State) : (transferOut s).memRead b = s.memRead b := by simp [State.memRead, State.byteAt]
@[simp] theorem transferOut_tmr  (u : BitVec 1) (s : State) : (transferOut s).tmr u = s.tmr u := by simp [State.tmr]
@[simp] theorem transferOut_sel   (s : State) : (transferOut s).sel = s.sel := by simp [State.sel]
@[simp] theorem transferOut_selChan   (s : State) : (transferOut s).selChan = s.selChan := by simp [State.selChan, State.chan, State.sel]

/-! ### `transferCycle` -/

@[simp] theorem transferCycle_cfg  (s : State) : (transferCycle s).cfg = s.cfg := by
  unfold transferCycle; dsimp only; split <;> simp
@[simp] theorem transferCycle_chans  (s : State) : (transferCycle s).chans = s.chans := by
  unfold transferCycle; dsimp only; split <;> simp
@[simp] theorem transferCycle_tmr0  (s : State) : (transferCycle s).tmr0 = s.tmr0 := by
  unfold transferCycle; dsimp only; split <;> simp
@[simp] theorem transferCycle_tmr1  (s : State) : (transferCycle s).tmr1 = s.tmr1 := by
  unfold transferCycle; dsimp only; split <;> simp
@[simp] theorem transferCycle_now  (s : State) : (transferCycle s).now = s.now := by
  unfold transferCycle; dsimp only; split <;> simp
@[simp] theorem transferCycle_alarms  (s : State) : (transferCycle s).alarms = s.alarms := by
  unfold transferCycle; dsimp only; split <;> simp
@[simp] theorem transferCycle_nextAlarmId  (s : State) : (transferCycle s).nextAlarmId = s.nextAlarmId := by
  unfold transferCycle; dsimp only; split <;> simp
@[simp] theorem transferCycle_events  (s : State) : (transferCycle s).events = s.events := by
  unfold transferCycle; dsimp only; split <;> simp
@[simp] theorem transferCycle_fifo  (s : State) : (transferCycle s).fifo = s.fifo := by
  unfold transferCycle; dsimp only; split <;> simp
@[simp] theorem transferCycle_inbox  (s : State) : (transferCycle s).inbox = s.inbox := by
  unfold transferCycle; dsimp only; split <;> simp
@[simp] theorem transferCycle_result  (s : State) : (transferCycle s).result = s.result := by
  unfold transferCycle; dsimp only; split <;> simp
@[simp] theorem transferCycle_chan  (i : ChanIdx) (s : State) : (transferCycle s).chan i = s.chan i := by simp [State.chan]
@[simp] theorem transferCycle_event  (k : Nat) (s : State) : (transferCycle s).event k = s.event k := by simp [State.event]
@[simp] theorem transferCycle_pending  (k : Nat) (s : State) : (transferCycle s).pending k = s.pending k := by simp [State.pending, State.event]
@[simp] theorem transferCycle_tmr  (u : BitVec 1) (s : State) : (transferCycle s).tmr u = s.tmr u := by simp [State.tmr]

/-! ### `dmaTick` -/

@[simp] theorem dmaTick_cfg  (s : State) : (dmaTick s).1.cfg = s.cfg := by
  unfold dmaTick; dsimp only; repeat' split
  all_goals simp
@[simp] theorem dmaTick_chans  (s : State) : (dmaTick s).1.chans = s.chans := by
  unfold dmaTick; dsimp only; repeat' split
  all_goals simp
@[simp] theorem dmaTick_tmr0  (s : State) : (dmaTick s).1.tmr0 = s.tmr0 := by
  unfold dmaTick; dsimp only; repeat' split
  all_goals simp
@[simp] theorem dmaTick_tmr1  (s : State) : (dmaTick s).1.tmr1 = s.tmr1 := by
  unfold dmaTick; dsimp only; repeat' split
  all_goals simp
@[simp] theorem dmaTick_now  (s : State) : (dmaTick s).1.now = s.now := by
  unfold dmaTick; dsimp only; repeat' split
  all_goals simp
@[simp] theorem dmaTick_alarms  (s : State) : (dmaTick s).1.alarms = s.alarms := by
  unfold dmaTick; dsimp only; repeat' split
  all_goals simp
@[simp] theorem dmaTick_nextAlarmId  (s : State) : (dmaTick s).1.nextAlarmId = s.nextAlarmId := by
  unfold dmaTick; dsimp only; repeat' split
  all_goals simp
@[simp] theorem dmaTick_events  (s : State) : (dmaTick s).1.events = s.events := by
  unfold dmaTick; dsimp only; repeat' split
  all_goals simp
@[simp] theorem dmaTick_fifo  (s : State) : (dmaTick s).1.fifo = s.fifo := by
  unfold dmaTick; dsimp only; repeat' split
  all_goals simp
@[simp] theorem dmaTick_inbox  (s : State) : (dmaTick s).1.inbox = s.inbox := by
  unfold dmaTick; dsimp only; repeat' split
  all_goals simp
@[simp] theorem dmaTick_result  (s : State) : (dmaTick s).1.result = s.result := by
  unfold dmaTick; dsimp only; repeat' split
  all_goals simp
@[simp] theorem dmaTick_chan  (i : ChanIdx) (s : State) : (dmaTick s).1.chan i = s.chan i := by simp [State.chan]
@[simp] theorem dmaTick_event  (k : Nat) (s : State) : (dmaTick s).1.event k = s.event k := by simp [State.event]
@[simp] theorem dmaTick_pending  (k : Nat) (s : State) : (dmaTick s).1.pending k = s.pending k := by simp [State.pending, State.event]
@[simp] theorem dmaTick_tmr  (u : BitVec 1) (s : State) : (dmaTick s).1.tmr u = s.tmr u := by simp [State.tmr]

/-! ### `timerFire` -/

@[simp] theorem timerFire_cfg (v : BitVec 32) (s : State) : (timerFire v s).1.cfg = s.cfg := by
  unfold timerFire; dsimp only; repeat' split
  all_goals simp
@[simp] theorem timerFire_chans (v : BitVec 32) (s : State) : (timerFire v s).1.chans = s.chans := by
  unfold timerFire; dsimp only; repeat' split
  all_goals simp
@[simp] theorem timerFire_dma (v : BitVec 32) (s : State) : (timerFire v s).1.dma = s.dma := by
  unfold timerFire; dsimp only; repeat' split
  all_goals simp
@[simp] theorem timerFire_now (v : BitVec 32) (s : State) : (timerFire v s).1.now = s.now := by
  unfold timerFire; dsimp only; repeat' split
  all_goals simp
@[simp] theorem timerFire_alarms (v : BitVec 32) (s : State) : (timerFire v s).1.alarms = s.alarms := by
  unfold timerFire; dsimp only; repeat' split
  all_goals simp
@[simp] theorem timerFire_nextAlarmId (v : BitVec 32) (s : State) : (timerFire v s).1.nextAlarmId = s.nextAlarmId := by
  unfold timerFire; dsimp only; repeat' split
  all_goals simp
@[simp] theorem timerFire_events (v : BitVec 32) (s : State) : (timerFire v s).1.events = s.events := by
  unfold timerFire; dsimp only; repeat' split
  all_goals simp
@[simp] theorem timerFire_fifo (v : BitVec 32) (s : State) : (timerFire v s).1.fifo = s.fifo := by
  unfold timerFire; dsimp only; repeat' split
  all_goals simp
@[simp] theorem timerFire_mem (v : BitVec 32) (s : State) : (timerFire v s).1.mem = s.mem := by
  unfold timerFire; dsimp only; repeat' split
  all_goals simp
@[simp] theorem timerFire_env (v : BitVec 32) (s : State) : (timerFire v s).1.env = s.env := by
  unfold timerFire; dsimp only; repeat' split
  all_goals simp
@[simp] theorem timerFire_inbox (v : BitVec 32) (s : State) : (timerFire v s).1.inbox = s.inbox := by
  unfold timerFire; dsimp only; repeat' split
  all_goals simp
@[simp] theorem timerFire_result (v : BitVec 32) (s : State) : (timerFire v s).1.result = s.result := by
  unfold timerFire; dsimp only; repeat' split
  all_goals simp
@[simp] theorem timerFire_emitted (v : BitVec 32) (s : State) : (timerFire v s).1.emitted = s.emitted := by
  unfold timerFire; dsimp only; repeat' split
  all_goals simp
@[simp] theorem timerFire_chan (v : BitVec 32) (i : ChanIdx) (s : State) : (timerFire v s).1.chan i = s.chan i := by simp [State.chan]
@[simp] theorem timerFire_event (v : BitVec 32) (k : Nat) (s : State) : (timerFire v s).1.event k = s.event k := by simp [State.event]
@[simp] theorem timerFire_pending (v : BitVec 32) (k : Nat) (s : State) : (timerFire v s).1.pending k = s.pending k := by simp [State.pending, State.event]
@[simp] theorem timerFire_byteAt (v : BitVec 32) (b : Nat) (s : State) : (timerFire v s).1.byteAt b = s.byteAt b := by simp [State.byteAt]
@[simp] theorem timerFire_memRead (v : BitVec 32) (b : Addr) (s : State) : (timerFire v s).1.memRead b = s.memRead b := by simp [State.memRead, State.byteAt]

/-! ### `drawExtAnswer` -/

@[simp] theorem drawExtAnswer_cfg  (s : State) : (drawExtAnswer s).2.cfg = s.cfg := by
  unfold drawExtAnswer; split <;> rfl
@[simp] theorem drawExtAnswer_chans  (s : State) : (drawExtAnswer s).2.chans = s.chans := by
  unfold drawExtAnswer; split <;> rfl
@[simp] theorem drawExtAnswer_g  (s : State) : (drawExtAnswer s).2.g = s.g := by
  unfold drawExtAnswer; split <;> rfl
@[simp] theorem drawExtAnswer_tmr0  (s : State) : (drawExtAnswer s).2.tmr0 = s.tmr0 := by
  unfold drawExtAnswer; split <;> rfl
@[simp] theorem drawExtAnswer_tmr1  (s : State) : (drawExtAnswer s).2.tmr1 = s.tmr1 := by
  unfold drawExtAnswer; split <;> rfl
@[simp] theorem drawExtAnswer_dma  (s : State) : (drawExtAnswer s).2.dma = s.dma := by
  unfold drawExtAnswer; split <;> rfl
@[simp] theorem drawExtAnswer_now  (s : State) : (drawExtAnswer s).2.now = s.now := by
  unfold drawExtAnswer; split <;> rfl
@[simp] theorem drawExtAnswer_alarms  (s : State) : (drawExtAnswer s).2.alarms = s.alarms := by
  unfold drawExtAnswer; split <;> rfl
@[simp] theorem drawExtAnswer_nextAlarmId  (s : State) : (drawExtAnswer s).2.nextAlarmId = s.nextAlarmId := by
  unfold drawExtAnswer; split <;> rfl
@[simp] theorem drawExtAnswer_events  (s : State) : (drawExtAnswer s).2.events = s.events := by
  unfold drawExtAnswer; split <;> rfl
@[simp] theorem drawExtAnswer_fifo  (s : State) : (drawExtAnswer s).2.fifo = s.fifo := by
  unfold drawExtAnswer; split <;> rfl
@[simp] theorem drawExtAnswer_mem  (s : State) : (drawExtAnswer s).2.mem = s.mem := by
  unfold drawExtAnswer; split <;> rfl
@[simp] theorem drawExtAnswer_inbox  (s : State) : (drawExtAnswer s).2.inbox = s.inbox := by
  unfold drawExtAnswer; split <;> rfl
@[simp] theorem drawExtAnswer_result  (s : State) : (drawExtAnswer s).2.result = s.result := by
  unfold drawExtAnswer; split <;> rfl
@[simp] theorem drawExtAnswer_emitted  (s : State) : (drawExtAnswer s).2.emitted = s.emitted := by
  unfold drawExtAnswer; split <;> rfl
@[simp] theorem drawExtAnswer_chan  (i : ChanIdx) (s : State) : (drawExtAnswer s).2.chan i = s.chan i := by simp [State.chan]
@[simp] theorem drawExtAnswer_event  (k : Nat) (s : State) : (drawExtAnswer s).2.event k = s.event k := by simp [State.event]
@[simp] theorem drawExtAnswer_pending  (k : Nat) (s : State) : (drawExtAnswer s).2.pending k = s.pending k := by simp [State.pending, State.event]
@[simp] theorem drawExtAnswer_byteAt  (b : Nat) (s : State) : (drawExtAnswer s).2.byteAt b = s.byteAt b := by simp [State.byteAt]
@[simp] theorem drawExtAnswer_memRead  (b : Addr) (s : State) : (drawExtAnswer s).2.memRead b = s.memRead b := by simp [State.memRead, State.byteAt]
@[simp] theorem drawExtAnswer_tmr  (u : BitVec 1) (s : State) : (drawExtAnswer s).2.tmr u = s.tmr u := by simp [State.tmr]
@[simp] theorem drawExtAnswer_sel   (s : State) : (drawExtAnswer s).2.sel = s.sel := by simp [State.sel]
@[simp] theorem drawExtAnswer_selChan   (s : State) : (drawExtAnswer s).2.selChan = s.selChan := by simp [State.selChan, State.chan, State.sel]

/-! ### `extHandler` -/

@[simp] theorem extHandler_cfg (e : Nat) (v : BitVec 32) (due : Nat) (s : State) : (extHandler e v due s).1.cfg = s.cfg := by
  simp [extHandler]
@[simp] theorem extHandler_chans (e : Nat) (v : BitVec 32) (due : Nat) (s : State) : (extHandler e v due s).1.chans = s.chans := by
  simp [extHandler]
@[simp] theorem extHandler_g (e : Nat) (v : BitVec 32) (due : Nat) (s : State) : (extHandler e v due s).1.g = s.g := by
  simp [extHandler]
@[simp] theorem extHandler_tmr0 (e : Nat) (v : BitVec 32) (due : Nat) (s : State) : (extHandler e v due s).1.tmr0 = s.tmr0 := by
  simp [extHandler]
@[simp] theorem extHandler_tmr1 (e : Nat) (v : BitVec 32) (due : Nat) (s : State) : (extHandler e v due s).1.tmr1 = s.tmr1 := by
  simp [extHandler]
@[simp] theorem extHandler_dma (e : Nat) (v : BitVec 32) (due : Nat) (s : State) : (extHandler e v due s).1.dma = s.dma := by
  simp [extHandler]
@[simp] theorem extHandler_now (e : Nat) (v : BitVec 32) (due : Nat) (s : State) : (extHandler e v due s).1.now = s.now := by
  simp [extHandler]
@[simp] theorem extHandler_fifo (e : Nat) (v : BitVec 32) (due : Nat) (s : State) : (extHandler e v due s).1.fifo = s.fifo := by
  simp [extHandler]
@[simp] theorem extHandler_mem (e : Nat) (v : BitVec 32) (due : Nat) (s : State) : (extHandler e v due s).1.mem = s.mem := by
  simp [extHandler]
@[simp] theorem extHandler_inbox (e : Nat) (v : BitVec 32) (due : Nat) (s : State) : (extHandler e v due s).1.inbox = s.inbox := by
  simp [extHandler]
@[simp] theorem extHandler_result (e : Nat) (v : BitVec 32) (due : Nat) (s : State) : (extHandler e v due s).1.result = s.result := by
  simp [extHandler]
@[simp] theorem extHandler_chan (e : Nat) (v : BitVec 32) (due : Nat) (i : ChanIdx) (s : State) : (extHandler e v due s).1.chan i = s.chan i := by simp [State.chan]
@[simp] theorem extHandler_byteAt (e : Nat) (v : BitVec 32) (due : Nat) (b : Nat) (s : State) : (extHandler e v due s).1.byteAt b = s.byteAt b := by simp [State.byteAt]
@[simp] theorem extHandler_memRead (e : Nat) (v : BitVec 32) (due : Nat) (b : Addr) (s : State) : (extHandler e v due s).1.memRead b = s.memRead b := by simp [State.memRead, State.byteAt]
@[simp] theorem extHandler_tmr (e : Nat) (v : BitVec 32) (due : Nat) (u : BitVec 1) (s : State) : (extHandler e v due s).1.tmr u = s.tmr u := by simp [State.tmr]
@[simp] theorem extHandler_sel (e : Nat) (v : BitVec 32) (due : Nat)  (s : State) : (extHandler e v due s).1.sel = s.sel := by simp [State.sel]
@[simp] theorem extHandler_selChan (e : Nat) (v : BitVec 32) (due : Nat)  (s : State) : (extHandler e v due s).1.selChan = s.selChan := by simp [State.selChan, State.chan, State.sel]

/-! ### `runHandler` -/

@[simp] theorem runHandler_cfg (e : Nat) (v : BitVec 32) (due : Nat) (s : State) : (runHandler e v due s).1.cfg = s.cfg := by
  unfold runHandler; repeat' split
  all_goals simp
@[simp] theorem runHandler_chans (e : Nat) (v : BitVec 32) (due : Nat) (s : State) : (runHandler e v due s).1.chans = s.chans := by
  unfold runHandler; repeat' split
  all_goals simp
@[simp] theorem runHandler_now (e : Nat) (v : BitVec 32) (due : Nat) (s : State) : (runHandler e v due s).1.now = s.now := by
  unfold runHandler; repeat' split
  all_goals simp
@[simp] theorem runHandler_fifo (e : Nat) (v : BitVec 32) (due : Nat) (s : State) : (runHandler e v due s).1.fifo = s.fifo := by
  unfold runHandler; repeat' split
  all_goals simp
@[simp] theorem runHandler_inbox (e : Nat) (v : BitVec 32) (due : Nat) (s : State) : (runHandler e v due s).1.inbox = s.inbox := by
  unfold runHandler; repeat' split
  all_goals simp
@[simp] theorem runHandler_result (e : Nat) (v : BitVec 32) (due : Nat) (s : State) : (runHandler e v due s).1.result = s.result := by
  unfold runHandler; repeat' split
  all_goals simp
@[simp] theorem runHandler_chan (e : Nat) (v : BitVec 32) (due : Nat) (i : ChanIdx) (s : State) : (runHandler e v due s).1.chan i = s.chan i := by simp [State.chan]

/-! ### `handlerReturn` -/

@[simp] theorem handlerReturn_cfg (a : Alarm) (r : BitVec 32) (s : State) : (handlerReturn a r s).cfg = s.cfg := by
  unfold handlerReturn; repeat' split
  all_goals simp
@[simp] theorem handlerReturn_chans (a : Alarm) (r : BitVec 32) (s : State) : (handlerReturn a r s).chans = s.chans := by
  unfold handlerReturn; repeat' split
  all_goals simp
@[simp] theorem handlerReturn_g (a : Alarm) (r : BitVec 32) (s : State) : (handlerReturn a r s).g = s.g := by
  unfold handlerReturn; repeat' split
  all_goals simp
@[simp] theorem handlerReturn_tmr0 (a : Alarm) (r : BitVec 32) (s : State) : (handlerReturn a r s).tmr0 = s.tmr0 := by
  unfold handlerReturn; repeat' split
  all_goals simp
@[simp] theorem handlerReturn_tmr1 (a : Alarm) (r : BitVec 32) (s : State) : (handlerReturn a r s).tmr1 = s.tmr1 := by
  unfold handlerReturn; repeat' split
  all_goals simp
@[simp] theorem handlerReturn_dma (a : Alarm) (r : BitVec 32) (s : State) : (handlerReturn a r s).dma = s.dma := by
  unfold handlerReturn; repeat' split
  all_goals simp
@[simp] theorem handlerReturn_now (a : Alarm) (r : BitVec 32) (s : State) : (handlerReturn a r s).now = s.now := by
  unfold handlerReturn; repeat' split
  all_goals simp
@[simp] theorem handlerReturn_nextAlarmId (a : Alarm) (r : BitVec 32) (s : State) : (handlerReturn a r s).nextAlarmId = s.nextAlarmId := by
  unfold handlerReturn; repeat' split
  all_goals simp
@[simp] theorem handlerReturn_fifo (a : Alarm) (r : BitVec 32) (s : State) : (handlerReturn a r s).fifo = s.fifo := by
  unfold handlerReturn; repeat' split
  all_goals simp
@[simp] theorem handlerReturn_mem (a : Alarm) (r : BitVec 32) (s : State) : (handlerReturn a r s).mem = s.mem := by
  unfold handlerReturn; repeat' split
  all_goals simp
@[simp] theorem handlerReturn_env (a : Alarm) (r : BitVec 32) (s : State) : (handlerReturn a r s).env = s.env := by
  unfold handlerReturn; repeat' split
  all_goals simp
@[simp] theorem handlerReturn_inbox (a : Alarm) (r : BitVec 32) (s : State) : (handlerReturn a r s).inbox = s.inbox := by
  unfold handlerReturn; repeat' split
  all_goals simp
@[simp] theorem handlerReturn_result (a : Alarm) (r : BitVec 32) (s : State) : (handlerReturn a r s).result = s.result := by
  unfold handlerReturn; repeat' split
  all_goals simp
@[simp] theorem handlerReturn_emitted (a : Alarm) (r : BitVec 32) (s : State) : (handlerReturn a r s).emitted = s.emitted := by
  unfold handlerReturn; repeat' split
  all_goals simp
@[simp] theorem handlerReturn_chan (a : Alarm) (r : BitVec 32) (i : ChanIdx) (s : State) : (handlerReturn a r s).chan i = s.chan i := by simp [State.chan]
@[simp] theorem handlerReturn_byteAt (a : Alarm) (r : BitVec 32) (b : Nat) (s : State) : (handlerReturn a r s).byteAt b = s.byteAt b := by simp [State.byteAt]
@[simp] theorem handlerReturn_memRead (a : Alarm) (r : BitVec 32) (b : Addr) (s : State) : (handlerReturn a r s).memRead b = s.memRead b := by simp [State.memRead, State.byteAt]
@[simp] theorem handlerReturn_tmr (a : Alarm) (r : BitVec 32) (u : BitVec 1) (s : State) : (handlerReturn a r s).tmr u = s.tmr u := by simp [State.tmr]
@[simp] theorem handlerReturn_sel (a : Alarm) (r : BitVec 32)  (s : State) : (handlerReturn a r s).sel = s.sel := by simp [State.sel]
@[simp] theorem handlerReturn_selChan (a : Alarm) (r : BitVec 32)  (s : State) : (handlerReturn a r s).selChan = s.selChan := by simp [State.selChan, State.chan, State.sel]

/-! ### `handlerEntry` -/

@[simp] theorem handlerEntry_cfg (a : Alarm) (s : State) : (handlerEntry a s).cfg = s.cfg := by
  unfold handlerEntry; dsimp only; split <;> simp
@[simp] theorem handlerEntry_chans (a : Alarm) (s : State) : (handlerEntry a s).chans = s.chans := by
  unfold handlerEntry; dsimp only; split <;> simp
@[simp] theorem handlerEntry_now (a : Alarm) (s : State) : (handlerEntry a s).now = s.now := by
  unfold handlerEntry; dsimp only; split <;> simp
@[simp] theorem handlerEntry_fifo (a : Alarm) (s : State) : (handlerEntry a s).fifo = s.fifo := by
  unfold handlerEntry; dsimp only; split <;> simp
@[simp] theorem handlerEntry_inbox (a : Alarm) (s : State) : (handlerEntry a s).inbox = s.inbox := by
  unfold handlerEntry; dsimp only; split <;> simp
@[simp] theorem handlerEntry_result (a : Alarm) (s : State) : (handlerEntry a s).result = s.result := by
  unfold handlerEntry; dsimp only; split <;> simp
@[simp] theorem handlerEntry_chan (a : Alarm) (i : ChanIdx) (s : State) : (handlerEntry a s).chan i = s.chan i := by simp [State.chan]

/-! ### `alarmDispatch` -/

@[simp] theorem alarmDispatch_cfg  (s : State) : (alarmDispatch s).cfg = s.cfg := by
  unfold alarmDispatch; split <;> simp
@[simp] theorem alarmDispatch_chans  (s : State) : (alarmDispatch s).chans = s.chans := by
  unfold alarmDispatch; split <;> simp
@[simp] theorem alarmDispatch_now  (s : State) : (alarmDispatch s).now = s.now := by
  unfold alarmDispatch; split <;> simp
@[simp] theorem alarmDispatch_fifo  (s : State) : (alarmDispatch s).fifo = s.fifo := by
  unfold alarmDispatch; split <;> simp
@[simp] theorem alarmDispatch_inbox  (s : State) : (alarmDispatch s).inbox = s.inbox := by
  unfold alarmDispatch; split <;> simp
@[simp] theorem alarmDispatch_result  (s : State) : (alarmDispatch s).result = s.result := by
  unfold alarmDispatch; split <;> simp
@[simp] theorem alarmDispatch_chan  (i : ChanIdx) (s : State) : (alarmDispatch s).chan i = s.chan i := by simp [State.chan]

/-! ### `waitRound` -/

@[simp] theorem waitRound_cfg (a : Alarm) (s : State) : (waitRound a s).cfg = s.cfg := by
  simp [waitRound]
@[simp] theorem waitRound_chans (a : Alarm) (s : State) : (waitRound a s).chans = s.chans := by
  simp [waitRound]
@[simp] theorem waitRound_fifo (a : Alarm) (s : State) : (waitRound a s).fifo = s.fifo := by
  simp [waitRound]
@[simp] theorem waitRound_inbox (a : Alarm) (s : State) : (waitRound a s).inbox = s.inbox := by
  simp [waitRound]
@[simp] theorem waitRound_result (a : Alarm) (s : State) : (waitRound a s).result = s.result := by
  simp [waitRound]
@[simp] theorem waitRound_chan (a : Alarm) (i : ChanIdx) (s : State) : (waitRound a s).chan i = s.chan i := by simp [State.chan]

/-! ### `waitLoop` -/

@[simp] theorem waitLoop_cfg (target n : Nat) (s : State) : (waitLoop target n s).cfg = s.cfg := by
  induction n generalizing s with
  | zero => unfold waitLoop; split <;> rfl
  | succ n ih => unfold waitLoop; split <;> simp [ih]
@[simp] theorem waitLoop_chans (target n : Nat) (s : State) : (waitLoop target n s).chans = s.chans := by
  induction n generalizing s with
  | zero => unfold waitLoop; split <;> rfl
  | succ n ih => unfold waitLoop; split <;> simp [ih]
@[simp] theorem waitLoop_fifo (target n : Nat) (s : State) : (waitLoop target n s).fifo = s.fifo := by
  induction n generalizing s with
  | zero => unfold waitLoop; split <;> rfl
  | succ n ih => unfold waitLoop; split <;> simp [ih]
@[simp] theorem waitLoop_result (target n : Nat) (s : State) : (waitLoop target n s).result = s.result := by
  induction n generalizing s with
  | zero => unfold waitLoop; split <;> rfl
  | succ n ih => unfold waitLoop; split <;> simp [ih]
@[simp] theorem waitLoop_chan (target n : Nat) (i : ChanIdx) (s : State) : (waitLoop target n s).chan i = s.chan i := by simp [State.chan]

/-! ### `waitUntil` -/

@[simp] theorem waitUntil_cfg (target : Nat) (s : State) : (waitUntil target s).cfg = s.cfg := by
  simp [waitUntil]
@[simp] theorem waitUntil_chans (target : Nat) (s : State) : (waitUntil target s).chans = s.chans := by
  simp [waitUntil]
@[simp] theorem waitUntil_fifo (target : Nat) (s : State) : (waitUntil target s).fifo = s.fifo := by
  simp [waitUntil]
@[simp] theorem waitUntil_result (target : Nat) (s : State) : (waitUntil target s).result = s.result := by
  simp [waitUntil]
@[simp] theorem waitUntil_chan (target : Nat) (i : ChanIdx) (s : State) : (waitUntil target s).chan i = s.chan i := by simp [State.chan]

/-! ### `setVoiceCount` -/

@[simp] theorem setVoiceCount_cfg (n : Nat) (s : State) : (setVoiceCount n s).cfg = s.cfg := rfl
@[simp] theorem setVoiceCount_tmr0 (n : Nat) (s : State) : (setVoiceCount n s).tmr0 = s.tmr0 := rfl
@[simp] theorem setVoiceCount_tmr1 (n : Nat) (s : State) : (setVoiceCount n s).tmr1 = s.tmr1 := rfl
@[simp] theorem setVoiceCount_dma (n : Nat) (s : State) : (setVoiceCount n s).dma = s.dma := rfl
@[simp] theorem setVoiceCount_now (n : Nat) (s : State) : (setVoiceCount n s).now = s.now := rfl
@[simp] theorem setVoiceCount_alarms (n : Nat) (s : State) : (setVoiceCount n s).alarms = s.alarms := rfl
@[simp] theorem setVoiceCount_nextAlarmId (n : Nat) (s : State) : (setVoiceCount n s).nextAlarmId = s.nextAlarmId := rfl
@[simp] theorem setVoiceCount_events (n : Nat) (s : State) : (setVoiceCount n s).events = s.events := rfl
@[simp] theorem setVoiceCount_fifo (n : Nat) (s : State) : (setVoiceCount n s).fifo = s.fifo := rfl
@[simp] theorem setVoiceCount_mem (n : Nat) (s : State) : (setVoiceCount n s).mem = s.mem := rfl
@[simp] theorem setVoiceCount_env (n : Nat) (s : State) : (setVoiceCount n s).env = s.env := rfl
@[simp] theorem setVoiceCount_inbox (n : Nat) (s : State) : (setVoiceCount n s).inbox = s.inbox := rfl
@[simp] theorem setVoiceCount_result (n : Nat) (s : State) : (setVoiceCount n s).result = s.result := rfl
@[simp] theorem setVoiceCount_emitted (n : Nat) (s : State) : (setVoiceCount n s).emitted = s.emitted := rfl
@[simp] theorem setVoiceCount_event (n : Nat) (k : Nat) (s : State) : (setVoiceCount n s).event k = s.event k := by simp [State.event]
@[simp] theorem setVoiceCount_pending (n : Nat) (k : Nat) (s : State) : (setVoiceCount n s).pending k = s.pending k := by simp [State.pending, State.event]
@[simp] theorem setVoiceCount_byteAt (n : Nat) (b : Nat) (s : State) : (setVoiceCount n s).byteAt b = s.byteAt b := by simp [State.byteAt]
@[simp] theorem setVoiceCount_memRead (n : Nat) (b : Addr) (s : State) : (setVoiceCount n s).memRead b = s.memRead b := by simp [State.memRead, State.byteAt]
@[simp] theorem setVoiceCount_tmr (n : Nat) (u : BitVec 1) (s : State) : (setVoiceCount n s).tmr u = s.tmr u := by simp [State.tmr]

/-! ### `deviceReset` -/

@[simp] theorem deviceReset_cfg  (s : State) : (deviceReset s).cfg = s.cfg := by
  simp [deviceReset]
@[simp] theorem deviceReset_now  (s : State) : (deviceReset s).now = s.now := by
  simp [deviceReset]
@[simp] theorem deviceReset_nextAlarmId  (s : State) : (deviceReset s).nextAlarmId = s.nextAlarmId := by
  simp [deviceReset]
@[simp] theorem deviceReset_fifo  (s : State) : (deviceReset s).fifo = s.fifo := by
  simp [deviceReset]
@[simp] theorem deviceReset_mem  (s : State) : (deviceReset s).mem = s.mem := by
  simp [deviceReset]
@[simp] theorem deviceReset_env  (s : State) : (deviceReset s).env = s.env := by
  simp [deviceReset]
@[simp] theorem deviceReset_inbox  (s : State) : (deviceReset s).inbox = s.inbox := by
  simp [deviceReset]
@[simp] theorem deviceReset_result  (s : State) : (deviceReset s).result = s.result := by
  simp [deviceReset]
@[simp] theorem deviceReset_emitted  (s : State) : (deviceReset s).emitted = s.emitted := by
  simp [deviceReset]
@[simp] theorem deviceReset_byteAt  (b : Nat) (s : State) : (deviceReset s).byteAt b = s.byteAt b := by simp [State.byteAt]
@[simp] theorem deviceReset_memRead  (b : Addr) (s : State) : (deviceReset s).memRead b = s.memRead b := by simp [State.memRead, State.byteAt]

/-! ### `advanceWave` -/

@[simp] theorem advanceWave_cfg (i : ChanIdx) (s : State) : (advanceWave i s).cfg = s.cfg := by
  simp [advanceWave]
@[simp] theorem advanceWave_tmr0 (i : ChanIdx) (s : State) : (advanceWave i s).tmr0 = s.tmr0 := by
  simp [advanceWave]
@[simp] theorem advanceWave_tmr1 (i : ChanIdx) (s : State) : (advanceWave i s).tmr1 = s.tmr1 := by
  simp [advanceWave]
@[simp] theorem advanceWave_dma (i : ChanIdx) (s : State) : (advanceWave i s).dma = s.dma := by
  simp [advanceWave]
@[simp] theorem advanceWave_now (i : ChanIdx) (s : State) : (advanceWave i s).now = s.now := by
  simp [advanceWave]
@[simp] theorem advanceWave_alarms (i : ChanIdx) (s : State) : (advanceWave i s).alarms = s.alarms := by
  simp [advanceWave]
@[simp] theorem advanceWave_nextAlarmId (i : ChanIdx) (s : State) : (advanceWave i s).nextAlarmId = s.nextAlarmId := by
  simp [advanceWave]
@[simp] theorem advanceWave_events (i : ChanIdx) (s : State) : (advanceWave i s).events = s.events := by
  simp [advanceWave]
@[simp] theorem advanceWave_fifo (i : ChanIdx) (s : State) : (advanceWave i s).fifo = s.fifo := by
  simp [advanceWave]
@[simp] theorem advanceWave_mem (i : ChanIdx) (s : State) : (advanceWave i s).mem = s.mem := by
  simp [advanceWave]
@[simp] theorem advanceWave_env (i : ChanIdx) (s : State) : (advanceWave i s).env = s.env := by
  simp [advanceWave]
@[simp] theorem advanceWave_inbox (i : ChanIdx) (s : State) : (advanceWave i s).inbox = s.inbox := by
  simp [advanceWave]
@[simp] theorem advanceWave_result (i : ChanIdx) (s : State) : (advanceWave i s).result = s.result := by
  simp [advanceWave]
@[simp] theorem advanceWave_emitted (i : ChanIdx) (s : State) : (advanceWave i s).emitted = s.emitted := by
  simp [advanceWave]
@[simp] theorem advanceWave_event (i : ChanIdx) (k : Nat) (s : State) : (advanceWave i s).event k = s.event k := by simp [State.event]
@[simp] theorem advanceWave_pending (i : ChanIdx) (k : Nat) (s : State) : (advanceWave i s).pending k = s.pending k := by simp [State.pending, State.event]
@[simp] theorem advanceWave_byteAt (i : ChanIdx) (b : Nat) (s : State) : (advanceWave i s).byteAt b = s.byteAt b := by simp [State.byteAt]
@[simp] theorem advanceWave_memRead (i : ChanIdx) (b : Addr) (s : State) : (advanceWave i s).memRead b = s.memRead b := by simp [State.memRead, State.byteAt]
@[simp] theorem advanceWave_tmr (i : ChanIdx) (u : BitVec 1) (s : State) : (advanceWave i s).tmr u = s.tmr u := by simp [State.tmr]

/-! ### `advanceRamp` -/

@[simp] theorem advanceRamp_cfg (i : ChanIdx) (s : State) : (advanceRamp i s).cfg = s.cfg := by
  simp [advanceRamp]
@[simp] theorem advanceRamp_tmr0 (i : ChanIdx) (s : State) : (advanceRamp i s).tmr0 = s.tmr0 := by
  simp [advanceRamp]
@[simp] theorem advanceRamp_tmr1 (i : ChanIdx) (s : State) : (advanceRamp i s).tmr1 = s.tmr1 := by
  simp [advanceRamp]
@[simp] theorem advanceRamp_dma (i : ChanIdx) (s : State) : (advanceRamp i s).dma = s.dma := by
  simp [advanceRamp]
@[simp] theorem advanceRamp_now (i : ChanIdx) (s : State) : (advanceRamp i s).now = s.now := by
  simp [advanceRamp]
@[simp] theorem advanceRamp_alarms (i : ChanIdx) (s : State) : (advanceRamp i s).alarms = s.alarms := by
  simp [advanceRamp]
@[simp] theorem advanceRamp_nextAlarmId (i : ChanIdx) (s : State) : (advanceRamp i s).nextAlarmId = s.nextAlarmId := by
  simp [advanceRamp]
@[simp] theorem advanceRamp_events (i : ChanIdx) (s : State) : (advanceRamp i s).events = s.events := by
  simp [advanceRamp]
@[simp] theorem advanceRamp_fifo (i : ChanIdx) (s : State) : (advanceRamp i s).fifo = s.fifo := by
  simp [advanceRamp]
@[simp] theorem advanceRamp_mem (i : ChanIdx) (s : State) : (advanceRamp i s).mem = s.mem := by
  simp [advanceRamp]
@[simp] theorem advanceRamp_env (i : ChanIdx) (s : State) : (advanceRamp i s).env = s.env := by
  simp [advanceRamp]
@[simp] theorem advanceRamp_inbox (i : ChanIdx) (s : State) : (advanceRamp i s).inbox = s.inbox := by
  simp [advanceRamp]
@[simp] theorem advanceRamp_result (i : ChanIdx) (s : State) : (advanceRamp i s).result = s.result := by
  simp [advanceRamp]
@[simp] theorem advanceRamp_emitted (i : ChanIdx) (s : State) : (advanceRamp i s).emitted = s.emitted := by
  simp [advanceRamp]
@[simp] theorem advanceRamp_event (i : ChanIdx) (k : Nat) (s : State) : (advanceRamp i s).event k = s.event k := by simp [State.event]
@[simp] theorem advanceRamp_pending (i : ChanIdx) (k : Nat) (s : State) : (advanceRamp i s).pending k = s.pending k := by simp [State.pending, State.event]
@[simp] theorem advanceRamp_byteAt (i : ChanIdx) (b : Nat) (s : State) : (advanceRamp i s).byteAt b = s.byteAt b := by simp [State.byteAt]
@[simp] theorem advanceRamp_memRead (i : ChanIdx) (b : Addr) (s : State) : (advanceRamp i s).memRead b = s.memRead b := by simp [State.memRead, State.byteAt]
@[simp] theorem advanceRamp_tmr (i : ChanIdx) (u : BitVec 1) (s : State) : (advanceRamp i s).tmr u = s.tmr u := by simp [State.tmr]

end Sys2Proof.Machine
end

