-- ==== Sys2Proof/Laws/Registers.lean ====
section
/-! SUPPORT. The laws of the indexed registers: channels, timers, events. -/

namespace Sys2Proof.Machine

@[simp] theorem State.chan_setChan_self (i : ChanIdx) (c : Channel) (s : State) : (s.setChan i c).chan i = c := by
  simp [State.chan, Vector.get_eq_getElem]

theorem State.chan_setChan_ne {i j : ChanIdx} (c : Channel) (s : State) (h : j ≠ i) :
    (s.setChan i c).chan j = s.chan j := by
  simp only [State.chan, State.setChan, Vector.get_eq_getElem]
  exact Vector.getElem_set_ne _ _ (fun he => h (Fin.ext he.symm))

theorem State.chan_setChan (i j : ChanIdx) (c : Channel) (s : State) :
    (s.setChan i c).chan j = if j = i then c else s.chan j := by
  by_cases h : j = i
  · subst h; simp
  · simp [h, State.chan_setChan_ne]

@[simp] theorem State.chan_onSel_self (f : Channel → Channel) (s : State) :
    (s.onSel f).chan s.sel = f s.selChan := State.chan_setChan_self _ _ _

theorem State.chan_onSel_ne {j : ChanIdx} (f : Channel → Channel) (s : State) (h : j ≠ s.sel) :
    (s.onSel f).chan j = s.chan j := State.chan_setChan_ne _ _ h

@[simp] theorem State.selChan_onSel (f : Channel → Channel) (s : State) :
    (s.onSel f).selChan = f s.selChan := State.chan_onSel_self f s

/-- The same function on every channel, read back. -/
theorem get_mapChannels (f : Channel → Channel) (v : Vector Channel 32) (i : ChanIdx) :
    (mapChannels f v).get i = f (v.get i) := by
  simp [mapChannels, Vector.get_eq_getElem, Vector.getElem_mk]

/-- Two channel files that agree everywhere are equal. -/
theorem chans_ext {v w : Vector Channel 32} (h : ∀ i : ChanIdx, v.get i = w.get i) : v = w := by
  apply Vector.ext
  intro i hi
  simpa [Vector.get_eq_getElem] using h ⟨i, hi⟩

@[simp] theorem State.tmr_setTmr_self (t : BitVec 1) (x : Timer) (s : State) : (s.setTmr t x).tmr t = x := by
  unfold State.tmr State.setTmr; split <;> rfl

theorem bit1_cases (t : BitVec 1) : t = 0#1 ∨ t = 1#1 := by revert t; decide

theorem State.tmr_setTmr_ne {t u : BitVec 1} (x : Timer) (s : State) (h : u ≠ t) :
    (s.setTmr t x).tmr u = s.tmr u := by
  rcases bit1_cases t with rfl | rfl <;> rcases bit1_cases u with rfl | rfl <;> simp_all [State.tmr]

theorem evTimer_cases (t : BitVec 1) : (t = 0#1 ∧ evTimer t = 1) ∨ (t = 1#1 ∧ evTimer t = 2) := by
  revert t; decide

/-- Writing an event: that event, and no other. -/
theorem getD_setSlot (l : List EventSlot) (e k : Nat) (x : EventSlot) :
    (setSlot l e x).getD k ⟨none, 0⟩ = if k = e then x else l.getD k ⟨none, 0⟩ := by
  induction l generalizing e k with
  | nil =>
    induction e generalizing k with
    | zero => cases k <;> simp [setSlot]
    | succ e ih => cases k with
      | zero => simp [setSlot]
      | succ k => simpa [setSlot] using ih k
  | cons y l ih =>
    cases e with
    | zero => cases k <;> simp [setSlot]
    | succ e => cases k with
      | zero => simp [setSlot]
      | succ k => simpa [setSlot] using ih e k

theorem length_setSlot {l : List EventSlot} {e : Nat} (x : EventSlot) (h : e < l.length) :
    (setSlot l e x).length = l.length := by
  induction l generalizing e with
  | nil => simp at h
  | cons y l ih =>
    cases e with
    | zero => simp [setSlot]
    | succ e => simpa [setSlot] using ih (by simpa using h)

theorem State.event_setEvent (e k : Nat) (x : EventSlot) (s : State) :
    (s.setEvent e x).event k = if k = e then x else s.event k := getD_setSlot _ _ _ _

@[simp] theorem State.event_setEvent_self (e : Nat) (x : EventSlot) (s : State) :
    (s.setEvent e x).event e = x := by simp [State.event_setEvent]

@[simp] theorem State.pending_setEvent_self (e : Nat) (x : EventSlot) (s : State) :
    (s.setEvent e x).pending e = x.pending := by simp [State.pending]

theorem State.pending_setEvent (e k : Nat) (x : EventSlot) (s : State) :
    (s.setEvent e x).pending k = if k = e then x.pending else s.pending k := by
  unfold State.pending
  rw [State.event_setEvent]
  split <;> rfl

theorem State.event_setPending (e k : Nat) (p : Option Nat) (s : State) :
    (s.setPending e p).event k = if k = e then { s.event e with pending := p } else s.event k :=
  State.event_setEvent _ _ _ _

theorem State.pending_setPending (e k : Nat) (p : Option Nat) (s : State) :
    (s.setPending e p).pending k = if k = e then p else s.pending k := by
  unfold State.setPending
  rw [State.pending_setEvent]

@[simp] theorem State.pending_setPending_self (e : Nat) (p : Option Nat) (s : State) :
    (s.setPending e p).pending e = p := by simp [State.pending_setPending]

/-- An event with a pending alarm is an event of the table. -/
theorem State.lt_length_of_pending {s : State} {e id : Nat} (h : s.pending e = some id) : e < s.events.length := by
  by_contra hn
  simp [State.pending, State.event, List.getD, List.getElem?_eq_none (Nat.le_of_not_lt hn)] at h

end Sys2Proof.Machine
end

