-- ==== Sys2Proof/Laws/Audio.lean ====
section
/-! SUPPORT. What one voice of an audio tick does, said once. -/

namespace Sys2Proof.Machine

/-- A channel as one tick leaves it. -/
def Channel.ticked (c : Config) (ch : Channel) : Channel := Channel.advanceRamp c ch.touchCache.advanceWave

/-- The wave advance leaves the ramp generator's inputs as they were, so that its cause is the channel's own. -/
@[simp] theorem Channel.rampRaises_advanceWave (ch : Channel) : ch.touchCache.advanceWave.rampRaises = ch.rampRaises := by
  unfold Channel.advanceWave Channel.waveBoundary
  repeat' split
  all_goals rfl

@[simp] theorem Channel.waveRaises_touchCache (ch : Channel) : ch.touchCache.waveRaises = ch.waveRaises := rfl

/-- Bit `k` of a cause mask after channel `i` may have raised its bit. -/
theorem raiseCause_getLsbD (raised : Bool) (i k : ChanIdx) (m : BitVec 32) :
    (raiseCause raised i m).getLsbD k.val = (m.getLsbD k.val || (decide (k = i) && raised)) := by
  unfold raiseCause
  cases raised
  · simp
  · by_cases h : k = i
    · subst h; simp
    · have hv : k.val ≠ i.val := fun he => h (Fin.ext he)
      simp only [if_true, BitVec.getLsbD_or, BitVec.getLsbD_shiftLeft, h, decide_false, Bool.false_and]
      rcases Nat.lt_or_ge k.val i.val with hlt | hge
      · simp [hlt]
      · have : k.val - i.val ≠ 0 := by omega
        simp [this]

/-- One voice ticked: its channel, and no other. -/
theorem tickVoice_chan (m : Mixing) (i j : ChanIdx) :
    (tickVoice m i).s.chan j = if j = i then (m.s.chan i).ticked m.s.cfg else m.s.chan j := by
  simp only [tickVoice, mixVoice, advanceRamp, advanceWave, Channel.ticked]
  by_cases h : j = i
  · subst h; simp
  · simp [State.chan_setChan_ne, h]

theorem tickVoice_accL (m : Mixing) (i : ChanIdx) :
    (tickVoice m i).accL = m.accL + scaleSample (fetchSample i m.s) (m.s.chan i).attenL := rfl

theorem tickVoice_accR (m : Mixing) (i : ChanIdx) :
    (tickVoice m i).accR = m.accR + scaleSample (fetchSample i m.s) (m.s.chan i).attenR := rfl

/-- One voice ticked: the register file but for the two causes of that channel. -/
theorem tickVoice_g (m : Mixing) (i : ChanIdx) :
    (tickVoice m i).s.g =
      { m.s.g with
        waveIrq := raiseCause (m.s.chan i).waveRaises i m.s.g.waveIrq
        rampIrq := raiseCause (m.s.chan i).rampRaises i m.s.g.rampIrq } := by
  simp [tickVoice, mixVoice, advanceRamp, advanceWave]

/-- One voice ticked: everything but the channels and the register file is as it was. -/
theorem tickVoice_rest (m : Mixing) (i : ChanIdx) :
    ∃ chans g, (tickVoice m i).s = { m.s with chans := chans, g := g } := ⟨_, _, rfl⟩

@[simp] theorem tickVoice_cfg (m : Mixing) (i : ChanIdx) : (tickVoice m i).s.cfg = m.s.cfg := rfl
@[simp] theorem tickVoice_mem (m : Mixing) (i : ChanIdx) : (tickVoice m i).s.mem = m.s.mem := rfl

/-- A sample fetch reads the configuration, device memory and its own channel. -/
theorem fetchSample_congr {s t : State} {i : ChanIdx} (hc : t.cfg = s.cfg) (hm : t.mem = s.mem)
    (hi : t.chan i = s.chan i) : fetchSample i t = fetchSample i s := by
  simp only [fetchSample, sampleAt, samplePair8, samplePair16, wordAt, State.memRead, State.byteAt, hc, hm, hi]

/-- A voice ticked leaves the sample of every other voice as it was. -/
theorem fetchSample_tickVoice {m : Mixing} {i j : ChanIdx} (h : j ≠ i) :
    fetchSample j (tickVoice m i).s = fetchSample j m.s :=
  fetchSample_congr rfl rfl (by simp [tickVoice_chan, h])

end Sys2Proof.Machine
end

