-- ==== Sys2Proof/Laws/Interrupts.lean ====
section
/-! SUPPORT. The laws of the cause flags, the blame pointer and the interrupt line. -/

namespace Sys2Proof.Machine

/-- A bit of the active mask. -/
theorem activeMask_getLsbD (n : BitVec 6) {k : Nat} (hk : k < 32) :
    (activeMask n).getLsbD k = decide (k < n.toNat) := by
  rw [activeMask, BitVec.getLsbD_ofNat, Nat.testBit_two_pow_sub_one]
  simp [hk]

/-- A channel is pending iff it is below the voice count and has a cause. -/
theorem voicePending_getLsbD (g : Globals) {k : Nat} (hk : k < 32) :
    (voicePending g).getLsbD k =
      ((g.waveIrq.getLsbD k || g.rampIrq.getLsbD k) && decide (k < g.activeVoiceCount.toNat)) := by
  simp only [voicePending, BitVec.getLsbD_and, BitVec.getLsbD_or, activeMask_getLsbD _ hk]

/-- Nothing is pending iff no channel is. -/
theorem eq_zero_iff_getLsbD (m : BitVec 32) : m = 0 ↔ ∀ k : BitVec 5, m.getLsbD k.toNat = false := by
  constructor
  · rintro rfl k; simp
  · intro h
    apply BitVec.eq_of_getLsbD_eq
    intro i hi
    have := h (BitVec.ofNat 5 i)
    rw [BitVec.toNat_ofNat, Nat.mod_eq_of_lt (by omega)] at this
    simpa using this

/-- The search from `k` over `n` channels stops at the first set bit. -/
theorem blameFrom_spec (m : BitVec 32) (n : Nat) (k : BitVec 5) (j : Nat) (hj : j < n)
    (hm : m.getLsbD (k + BitVec.ofNat 5 j).toNat = true) :
    m.getLsbD (blameFrom m n k).toNat = true ∧
      ∃ i ≤ j, blameFrom m n k = k + BitVec.ofNat 5 i ∧
        ∀ l < i, m.getLsbD (k + BitVec.ofNat 5 l).toNat = false := by
  induction n generalizing k j with
  | zero => omega
  | succ n ih =>
    unfold blameFrom
    by_cases hk : m.getLsbD k.toNat = true
    · rw [if_pos hk]
      exact ⟨hk, 0, Nat.zero_le _, by simp, fun l hl => absurd hl (Nat.not_lt_zero _)⟩
    · rw [if_neg hk]
      have shift : ∀ i, k + 1 + BitVec.ofNat 5 i = k + BitVec.ofNat 5 (i + 1) := fun i => by
        rw [BitVec.add_assoc, BitVec.add_comm 1, BitVec.ofNat_add]; rfl
      cases j with
      | zero => simp at hm; exact absurd hm hk
      | succ j =>
        obtain ⟨h1, i, hi, h2, h3⟩ := ih (k + 1) j (by omega) (by rwa [shift])
        refine ⟨h1, i + 1, by omega, by rw [h2, shift], fun l hl => ?_⟩
        cases l with
        | zero => simpa using hk
        | succ l => rw [← shift]; exact h3 l (by omega)

/-- While a voice cause is pending the blame pointer moves to a channel that has one. -/
theorem blamedChannel_pending {g : Globals} (h : voicePending g ≠ 0) :
    (voicePending g).getLsbD (blamedChannel g).toNat = true := by
  unfold blamedChannel
  rw [if_neg h]
  rw [Ne, eq_zero_iff_getLsbD] at h
  push Not at h
  obtain ⟨k, hk⟩ := h
  refine (blameFrom_spec _ 32 g.irqChan (k - g.irqChan).toNat (k - g.irqChan).isLt ?_).1
  rw [BitVec.ofNat_toNat, BitVec.setWidth_eq, BitVec.add_comm, BitVec.sub_add_cancel]
  simpa using hk

/-- One bit of a cause mask after another was cleared. -/
theorem clearCause_getLsbD (k : BitVec 5) (m : BitVec 32) (j : Nat) :
    (clearCause k m).getLsbD j = (m.getLsbD j && decide (j ≠ k.toNat)) := by
  have hk := k.isLt
  by_cases hj : j < 32
  · have h : decide (j < k.toNat) = false ∧ decide (j - k.toNat = 0) = true ↔ j = k.toNat := by simp; omega
    by_cases e : j = k.toNat <;> simp [clearCause, hj, e]; omega
  · simp [BitVec.getLsbD_of_ge _ _ (Nat.le_of_not_lt hj)]

/-- Everything the acknowledge of the blamed channel does: one wave and one ramp flag cleared, of an active channel. -/
theorem blameCleared_spec (g : Globals) :
    (∀ j, (blameCleared g).waveIrq.getLsbD j =
      (g.waveIrq.getLsbD j && !(decide (j = g.irqChan.toNat) && blameActive g))) ∧
    (∀ j, (blameCleared g).rampIrq.getLsbD j =
      (g.rampIrq.getLsbD j && !(decide (j = g.irqChan.toNat) && blameActive g))) ∧
    blameCleared g = { g with waveIrq := (blameCleared g).waveIrq, rampIrq := (blameCleared g).rampIrq } := by
  unfold blameCleared
  cases blameActive g <;> simp [clearCause_getLsbD]

/-- The status does not read the pointer or the line. -/
@[simp] theorem effectiveIrqStatus_irqUpdated (g : Globals) :
    effectiveIrqStatus (irqUpdated g) = effectiveIrqStatus g := rfl

@[simp] theorem voicePending_irqUpdated (g : Globals) : voicePending (irqUpdated g) = voicePending g := rfl

/-- Bringing pointer and line up to date makes the register file agree with its causes. -/
theorem Globals.Ok.updated {c : Config} {g : Globals} (h1 : 14 ≤ g.activeVoiceCount.toNat)
    (h2 : g.activeVoiceCount.toNat ≤ 32) (h3 : g.baseRate = rateOf c g.activeVoiceCount.toNat) :
    (irqUpdated g).Ok c :=
  ⟨h1, h2, h3, rfl, fun h => blamedChannel_pending (g := g) h⟩

end Sys2Proof.Machine
end

