-- ==== Sys2Proof/Laws/Scheduler.lean ====
section
/-! SUPPORT. What each procedure of the scheduler can do, said once: removing and arming an event, finding the least
entry, dispatching it, returning from its handler. -/

namespace Sys2Proof.Machine

/-! ### `schedRemove` and `schedAdd` -/

/-- The entries that stay when an event is removed are those `keptAlarms` names. -/
theorem schedRemove_alarms (e : Nat) (s : State) : (schedRemove e s).alarms = keptAlarms e s := by
  unfold schedRemove keptAlarms
  split
  · next h => simp [h]
  · next id h =>
    simp only [State.setPending_alarms, h, Option.some.injEq]
    congr 1
    funext a
    by_cases hi : id = a.id
    · simp [hi]
    · simp [hi, Ne.symm hi]

/-- A removed event keeps its value and is inactive; every other event is as it was. -/
theorem schedRemove_event (e k : Nat) (s : State) :
    (schedRemove e s).event k = if k = e then { s.event e with pending := none } else s.event k := by
  unfold schedRemove
  split
  · next h =>
    split
    · next hk =>
      subst hk
      unfold State.pending at h
      rw [← h]
    · rfl
  · rw [State.event_setPending]; rfl

theorem schedRemove_pending (e k : Nat) (s : State) :
    (schedRemove e s).pending k = if k = e then none else s.pending k := by
  unfold State.pending; rw [schedRemove_event]; split <;> rfl

theorem schedRemove_events_length (e : Nat) (s : State) :
    (schedRemove e s).events.length = s.events.length := by
  unfold schedRemove
  split
  · rfl
  · next id h => exact length_setSlot _ (State.lt_length_of_pending h)

/-- Removing an inactive event changes nothing. -/
theorem schedRemove_of_inactive {e : Nat} {s : State} (h : s.pending e = none) : schedRemove e s = s := by
  simp [schedRemove, h]

/-- `SchedRemove` writes the table and the events only. -/
theorem schedRemove_eq (e : Nat) (s : State) :
    schedRemove e s = { s with alarms := keptAlarms e s, events := (schedRemove e s).events } := by
  rw [← schedRemove_alarms]
  unfold schedRemove
  split <;> rfl

/-- `SchedAdd` on a full table: the event removed, the rejection logged. -/
theorem schedAdd_of_full {e : Nat} {s : State} (d v : BitVec 32)
    (h : s.cfg.schedCapacity ≤ (keptAlarms e s).length) :
    schedAdd e d v s = (schedRemove e s).emit (.log .schedulerTableFull) := by
  unfold schedAdd; simp [schedRemove_alarms, h]

/-- `SchedAdd` with a free slot: the event removed, then armed with the next id. -/
theorem schedAdd_of_room {e : Nat} {s : State} (d v : BitVec 32)
    (h : (keptAlarms e s).length < s.cfg.schedCapacity) :
    schedAdd e d v s =
      State.setEvent e ⟨some s.nextAlarmId, v⟩
        { schedRemove e s with
          nextAlarmId := s.nextAlarmId + 1
          alarms := keptAlarms e s ++ [⟨s.nextAlarmId, e, s.now + d.toNat, false⟩] } := by
  unfold schedAdd; simp [schedRemove_alarms, Nat.not_le.mpr h]

/-- Everything `SchedAdd` can do to the scheduler. -/
theorem schedAdd_cases (e : Nat) (d v : BitVec 32) (s : State) :
    ((keptAlarms e s).length < s.cfg.schedCapacity ∧
      (schedAdd e d v s).alarms = keptAlarms e s ++ [⟨s.nextAlarmId, e, s.now + d.toNat, false⟩] ∧
      (∀ k, (schedAdd e d v s).event k = if k = e then ⟨some s.nextAlarmId, v⟩ else s.event k) ∧
      (schedAdd e d v s).nextAlarmId = s.nextAlarmId + 1 ∧ (schedAdd e d v s).emitted = s.emitted) ∨
    (s.cfg.schedCapacity ≤ (keptAlarms e s).length ∧
      (schedAdd e d v s).alarms = keptAlarms e s ∧
      (∀ k, (schedAdd e d v s).event k = if k = e then { s.event e with pending := none } else s.event k) ∧
      (schedAdd e d v s).nextAlarmId = s.nextAlarmId ∧
      (schedAdd e d v s).emitted = s.emitted ++ [.log .schedulerTableFull]) := by
  rcases Nat.lt_or_ge (keptAlarms e s).length s.cfg.schedCapacity with h | h
  · refine .inl ⟨h, ?_⟩
    rw [schedAdd_of_room d v h]
    refine ⟨rfl, fun k => ?_, rfl, by simp⟩
    rw [State.event_setEvent]
    split
    · rfl
    · next hk => have := schedRemove_event e k s; simp only [hk, if_false] at this; exact this
  · refine .inr ⟨h, ?_⟩
    rw [schedAdd_of_full d v h]
    exact ⟨by simp [schedRemove_alarms], fun k => by simp [schedRemove_event], by simp, by simp⟩

/-- `SchedAdd` writes the table, the events, the next id and the log only. -/
theorem schedAdd_eq (e : Nat) (d v : BitVec 32) (s : State) :
    schedAdd e d v s =
      { s with
        alarms := (schedAdd e d v s).alarms, events := (schedAdd e d v s).events
        nextAlarmId := (schedAdd e d v s).nextAlarmId, emitted := (schedAdd e d v s).emitted } := by
  rcases Nat.lt_or_ge (keptAlarms e s).length s.cfg.schedCapacity with h | h
  · rw [schedAdd_of_room d v h, schedRemove_eq]; rfl
  · rw [schedAdd_of_full d v h, schedRemove_eq]; rfl

/-- Arming leaves the event active exactly when there was room. -/
theorem schedAdd_pending_self (e : Nat) (d v : BitVec 32) (s : State) :
    (schedAdd e d v s).pending e =
      if (keptAlarms e s).length < s.cfg.schedCapacity then some s.nextAlarmId else none := by
  rcases schedAdd_cases e d v s with ⟨h, -, he, -⟩ | ⟨h, -, he, -⟩
  · simp [State.pending, he, h]
  · simp [State.pending, he, Nat.not_lt.mpr h]

theorem schedAdd_event_ne {e k : Nat} (d v : BitVec 32) (s : State) (hk : k ≠ e) :
    (schedAdd e d v s).event k = s.event k := by
  rcases schedAdd_cases e d v s with ⟨-, -, he, -⟩ | ⟨-, -, he, -⟩ <;> simp [he, hk]

theorem schedAdd_events_length {e : Nat} (d v : BitVec 32) (s : State) (he : e < s.events.length) :
    (schedAdd e d v s).events.length = s.events.length := by
  rcases Nat.lt_or_ge (keptAlarms e s).length s.cfg.schedCapacity with h | h
  · rw [schedAdd_of_room d v h]
    exact (length_setSlot _ (by simpa [schedRemove_events_length] using he)).trans (schedRemove_events_length e s)
  · rw [schedAdd_of_full d v h]; simp [schedRemove_events_length]

/-- Everything a client's call can do: an external event armed or removed, or, for any other id, nothing (log 8). -/
theorem clientCall_cases (c : ClientCall) (s : State) :
    (∃ e d v, c = .add e d v ∧ s.cfg.isExternal e = true ∧ clientCall c s = schedAdd e d v s) ∨
    (∃ e, c = .remove e ∧ s.cfg.isExternal e = true ∧ clientCall c s = schedRemove e s) ∨
    clientCall c s = s := by
  unfold clientCall
  split <;> split <;> simp_all

theorem mem_keptAlarms {e : Nat} {s : State} {a : Alarm} :
    a ∈ keptAlarms e s ↔ a ∈ s.alarms ∧ (s.pending e = some a.id → a.expired = true) := by
  simp only [keptAlarms, List.mem_filter, Bool.not_eq_true', Bool.and_eq_false_iff, decide_eq_false_iff_not,
    Bool.not_eq_false']
  tauto

/-! ### The least entry -/

/-- The order of dispatch as a proposition. -/
theorem Alarm.before_iff (a b : Alarm) : a.before b = true ↔ a.due < b.due ∨ (a.due = b.due ∧ a.id < b.id) := by
  simp [Alarm.before]

theorem leastAlarm_eq_none {l : List Alarm} : leastAlarm l = none ↔ l = [] := by
  cases l with
  | nil => simp [leastAlarm]
  | cons a l => simp only [leastAlarm]; repeat' split
                all_goals simp

/-- The least entry is in the table and no entry fires before it. -/
theorem leastAlarm_spec {l : List Alarm} {a : Alarm} (h : leastAlarm l = some a) :
    a ∈ l ∧ ∀ b ∈ l, b.before a = false := by
  induction l generalizing a with
  | nil => simp [leastAlarm] at h
  | cons c l ih =>
    simp only [leastAlarm] at h
    split at h
    · next hn =>
      obtain rfl := leastAlarm_eq_none.mp hn
      obtain rfl : c = a := by simpa using h
      simp [Alarm.before]
    · next b hb =>
      obtain ⟨hm, hl⟩ := ih hb
      split at h <;> obtain rfl := Option.some.inj h
      · next hbc =>
        refine ⟨by simp [hm], fun d hd => ?_⟩
        rcases List.mem_cons.mp hd with rfl | hd
        · rw [Alarm.before_iff] at hbc
          rw [Bool.eq_false_iff, Ne, Alarm.before_iff]; omega
        · exact hl d hd
      · next hbc =>
        refine ⟨by simp, fun d hd => ?_⟩
        rcases List.mem_cons.mp hd with rfl | hd
        · simp [Alarm.before]
        · have := hl d hd
          rw [Bool.eq_false_iff, Ne, Alarm.before_iff] at *
          omega

/-- An entry that fires before every other one is the least entry. -/
theorem leastAlarm_eq {l : List Alarm} {a : Alarm} (hm : a ∈ l)
    (hl : ∀ b ∈ l, b ≠ a → a.due < b.due ∨ (a.due = b.due ∧ a.id < b.id)) : leastAlarm l = some a := by
  cases h : leastAlarm l with
  | none => rw [leastAlarm_eq_none] at h; subst h; simp at hm
  | some b =>
    obtain ⟨hb, hmin⟩ := leastAlarm_spec h
    by_cases hba : b = a
    · rw [hba]
    · have h1 := hl b hb hba
      have h2 := hmin a hm
      rw [Bool.eq_false_iff, Ne, Alarm.before_iff] at h2
      exact absurd h1 h2

/-! ### Dispatch -/

/-- Everything a dispatch can do: nothing, or the entry of the least expired alarm into its handler. -/
theorem alarmDispatch_cases (s : State) :
    (alarmDispatch s = s ∧ ∀ a ∈ s.alarms, a.expired = false) ∨
    ∃ a, a ∈ s.alarms ∧ a.expired = true ∧ alarmDispatch s = handlerEntry a s := by
  unfold alarmDispatch
  split
  · next h =>
    refine .inl ⟨rfl, fun a ha => ?_⟩
    rw [leastAlarm_eq_none, List.filter_eq_nil_iff] at h
    simpa using h a ha
  · next a h =>
    have := (leastAlarm_spec h).1
    simp only [List.mem_filter] at this
    exact .inr ⟨a, this.1, this.2, rfl⟩

/-- The dispatch of the least expired entry. -/
theorem alarmDispatch_of_least {s : State} {a : Alarm} (ha : a ∈ s.alarms) (hx : a.expired = true)
    (hl : ∀ b ∈ s.alarms, b.expired = true → b ≠ a → a.due < b.due ∨ (a.due = b.due ∧ a.id < b.id)) :
    alarmDispatch s = handlerEntry a s := by
  have : leastAlarm (s.alarms.filter (fun a => a.expired)) = some a :=
    leastAlarm_eq (by simp [ha, hx]) (fun b hb hne => by
      simp only [List.mem_filter] at hb
      exact hl b hb.1 hb.2 hne)
  simp [alarmDispatch, this]

/-- The entry that `WAIT` serves next is in the table and has expired or falls due. -/
theorem waitNext_spec {target : Nat} {s : State} {a : Alarm} (h : waitNext target s = some a) :
    a ∈ s.alarms ∧ (a.expired = true ∨ a.due ≤ target) ∧
      ∀ b ∈ s.alarms, b.expired = true ∨ b.due ≤ target → b.before a = false := by
  obtain ⟨hm, hl⟩ := leastAlarm_spec h
  simp only [List.mem_filter, Bool.or_eq_true, decide_eq_true_eq] at hm
  exact ⟨hm.1, hm.2, fun b hb hc => hl b (by simpa [hb] using hc)⟩

theorem waitNext_eq_none {target : Nat} {s : State} :
    waitNext target s = none ↔ ∀ a ∈ s.alarms, a.expired = false ∧ target < a.due := by
  unfold waitNext
  rw [leastAlarm_eq_none, List.filter_eq_nil_iff]
  simp

/-- An entry that has expired or falls due, before every other such one, is served next. -/
theorem waitNext_of_least {target : Nat} {s : State} {a : Alarm} (ha : a ∈ s.alarms)
    (hx : a.expired = true ∨ a.due ≤ target)
    (hl : ∀ b ∈ s.alarms, (b.expired = true ∨ b.due ≤ target) → b ≠ a →
      a.due < b.due ∨ (a.due = b.due ∧ a.id < b.id)) : waitNext target s = some a :=
  leastAlarm_eq (by simpa [ha] using hx) (fun b hb hne => by
    simp only [List.mem_filter, Bool.or_eq_true, decide_eq_true_eq] at hb
    exact hl b hb.1 hb.2 hne)

/-- One round of `WAIT`'s loop. -/
theorem waitLoop_round {target : Nat} {s : State} {a : Alarm} (h : waitNext target s = some a) (n : Nat) :
    waitLoop target (n + 1) s = waitLoop target n (waitRound a s) := by
  rw [waitLoop, h]

/-- An entry that has expired or falls due leaves `WAIT` a round to take. -/
theorem waitRounds_pos {target : Nat} {s : State} {a : Alarm} (ha : a ∈ s.alarms)
    (hx : a.expired = true ∨ a.due ≤ target) : 1 ≤ waitRounds target s := by
  have h1 : 1 ≤ alarmRounds target a := by
    unfold alarmRounds
    rcases hx with h | h
    · simp [h]
    · rw [if_pos h]; omega
  have h2 : alarmRounds target a ≤ (s.alarms.map (alarmRounds target)).sum :=
    List.le_sum_of_mem (List.mem_map_of_mem ha)
  unfold waitRounds; omega

/-- Everything `WAIT`'s loop can end with: nothing left to serve and the clock at the target, or an entry left to serve
and the rest of the wait first in the inbox. -/
theorem waitLoop_end (target n : Nat) (s : State) :
    ((waitLoop target n s).inbox = s.inbox ∧ (waitLoop target n s).now = target ∧
      ∀ a ∈ (waitLoop target n s).alarms, a.expired = false ∧ target < a.due) ∨
    ((waitLoop target n s).inbox = .waitUntil target :: s.inbox ∧
      ∃ a ∈ (waitLoop target n s).alarms, a.expired = true ∨ a.due ≤ target) := by
  induction n generalizing s with
  | zero =>
    unfold waitLoop
    split
    · next h => exact .inl ⟨rfl, rfl, waitNext_eq_none.mp h⟩
    · next a h => exact .inr ⟨rfl, a, (waitNext_spec h).1, (waitNext_spec h).2.1⟩
  | succ n ih =>
    unfold waitLoop
    split
    · next h => exact .inl ⟨rfl, rfl, waitNext_eq_none.mp h⟩
    · next a _ => simpa using ih (waitRound a s)

/-- What every round of `WAIT` and its two ends keep, `WAIT` keeps. -/
theorem waitLoop_keeps {P : State → Prop} {target : Nat}
    (round : ∀ s a, waitNext target s = some a → P s → P (waitRound a s))
    (ended : ∀ s, waitNext target s = none → P s → P { s with now := target })
    (left : ∀ s, P s → P { s with inbox := .waitUntil target :: s.inbox })
    (n : Nat) {s : State} (h : P s) : P (waitLoop target n s) := by
  induction n generalizing s with
  | zero =>
    unfold waitLoop
    split
    · next hn => exact ended s hn h
    · exact left s h
  | succ n ih =>
    unfold waitLoop
    split
    · next hn => exact ended s hn h
    · next a ha => exact ih (round s a ha h)

end Sys2Proof.Machine
end

