-- ==== Sys2Proof/Laws/Invariants.lean ====
section
/-! SUPPORT. The scheduler's invariant through each of the scheduler's procedures. -/

namespace Sys2Proof.Machine

/-- Two entries of one id are one entry. -/
theorem State.SchedOk.eq_of_id {s : State} (h : s.SchedOk) {a b : Alarm} (ha : a ∈ s.alarms) (hb : b ∈ s.alarms)
    (hid : a.id = b.id) : a = b := by
  have hp := h.ids_rising
  generalize s.alarms = l at ha hb hp
  induction l with
  | nil => simp at ha
  | cons c l ih =>
    obtain ⟨hc, hl⟩ := List.pairwise_cons.mp hp
    rcases List.mem_cons.mp ha with ha | ha <;> rcases List.mem_cons.mp hb with hb | hb
    · rw [ha, hb]
    · exact absurd hid (Nat.ne_of_lt (ha ▸ hc b hb))
    · exact absurd hid (Nat.ne_of_gt (hb ▸ hc a ha))
    · exact ih ha hb hl

/-- The scheduler's invariant rests on the clock, the table, the next id, the events and the configuration only. -/
theorem State.SchedOk.congr {s t : State} (h : s.SchedOk) (hn : t.now = s.now) (ha : t.alarms = s.alarms)
    (hi : t.nextAlarmId = s.nextAlarmId) (he : t.events = s.events) (hc : t.cfg = s.cfg) : t.SchedOk := by
  have hp : ∀ k, t.pending k = s.pending k := fun k => by simp [State.pending, State.event, he]
  constructor
  · rw [ha]; exact h.ids_rising
  · rw [ha, hi]; exact h.ids_fresh
  · rw [ha, hc]; exact h.room
  · rw [ha]; simpa only [hp] using h.unexpired_pending
  · rw [ha]; simpa only [hp] using h.pending_entry
  · rw [ha, hn]; exact h.expired_due
  · rw [he, hc]; exact h.events_length

/-- Time may pass. -/
theorem State.SchedOk.later {s : State} (h : s.SchedOk) {n : Nat} (hn : s.now ≤ n) :
    State.SchedOk { s with now := n } :=
  ⟨h.ids_rising, h.ids_fresh, h.room, h.unexpired_pending, h.pending_entry,
    fun a ha hx => Nat.le_trans (h.expired_due a ha hx) hn, h.events_length⟩

/-- The pending alarm of another event stays when an event is removed. -/
theorem State.SchedOk.kept_of_pending {s : State} (h : s.SchedOk) {e k id : Nat} (hk : k ≠ e)
    (hp : s.pending k = some id) : ∃ a ∈ keptAlarms e s, a.id = id ∧ a.ev = k := by
  obtain ⟨a, ha, hid, hev⟩ := h.pending_entry k id hp
  refine ⟨a, mem_keptAlarms.mpr ⟨ha, fun hpe => ?_⟩, hid, hev⟩
  obtain ⟨b, hb, hbid, hbev⟩ := h.pending_entry e a.id hpe
  have := h.eq_of_id hb ha hbid
  subst this
  exact absurd (hev.symm.trans hbev) hk

/-- An unexpired entry that stays belongs to another event. -/
theorem State.SchedOk.ev_ne_of_kept {s : State} (h : s.SchedOk) {e : Nat} {a : Alarm} (ha : a ∈ keptAlarms e s)
    (hx : a.expired = false) : a.ev ≠ e := by
  rintro rfl
  obtain ⟨hm, hk⟩ := mem_keptAlarms.mp ha
  have := hk (h.unexpired_pending a hm hx)
  rw [hx] at this
  exact absurd this (by simp)

theorem State.SchedOk.remove {s : State} (h : s.SchedOk) (e : Nat) : (schedRemove e s).SchedOk := by
  have hsub : ∀ a, a ∈ keptAlarms e s → a ∈ s.alarms := fun a ha => (mem_keptAlarms.mp ha).1
  constructor
  · rw [schedRemove_alarms]; exact h.ids_rising.filter _
  · rw [schedRemove_alarms]; exact fun a ha => by simpa using h.ids_fresh a (hsub a ha)
  · rw [schedRemove_alarms]
    exact Nat.le_trans (List.length_filter_le _ _) (by simpa using h.room)
  · rw [schedRemove_alarms]
    intro a ha hx
    rw [schedRemove_pending, if_neg (h.ev_ne_of_kept ha hx)]
    exact h.unexpired_pending a (hsub a ha) hx
  · rw [schedRemove_alarms]
    intro k id hp
    rw [schedRemove_pending] at hp
    split at hp
    · simp at hp
    · next hk => exact h.kept_of_pending hk hp
  · rw [schedRemove_alarms]; exact fun a ha hx => by simpa using h.expired_due a (hsub a ha) hx
  · rw [schedRemove_events_length]; simpa using h.events_length

theorem State.SchedOk.add {s : State} (h : s.SchedOk) {e : Nat} (d v : BitVec 32) (he : e < 3 + s.cfg.extEvents) :
    (schedAdd e d v s).SchedOk := by
  rcases Nat.lt_or_ge (keptAlarms e s).length s.cfg.schedCapacity with hr | hr
  · have hsub : ∀ a, a ∈ keptAlarms e s → a ∈ s.alarms := fun a ha => (mem_keptAlarms.mp ha).1
    obtain ⟨-, ha, hev, hn, -⟩ | ⟨hf, -⟩ := schedAdd_cases e d v s
    · have hp : ∀ k, (schedAdd e d v s).pending k = if k = e then some s.nextAlarmId else s.pending k := fun k => by
        unfold State.pending; rw [hev]; split <;> rfl
      constructor
      · rw [ha]
        refine List.pairwise_append.mpr ⟨h.ids_rising.filter _, by simp, fun a hm b hb => ?_⟩
        obtain rfl : b = _ := by simpa using hb
        exact h.ids_fresh a (hsub a hm)
      · rw [ha, hn]
        intro a hm
        rcases List.mem_append.mp hm with hm | hm
        · exact Nat.lt_succ_of_lt (h.ids_fresh a (hsub a hm))
        · obtain rfl : a = _ := by simpa using hm
          simp
      · rw [ha]; simp only [List.length_append, List.length_singleton, schedAdd_cfg]; omega
      · rw [ha]
        intro a hm hx
        rw [hp]
        rcases List.mem_append.mp hm with hm | hm
        · rw [if_neg (h.ev_ne_of_kept hm hx)]
          exact h.unexpired_pending a (hsub a hm) hx
        · obtain rfl : a = _ := by simpa using hm
          simp
      · rw [ha]
        intro k id hk
        rw [hp] at hk
        split at hk
        · next hke => exact ⟨_, List.mem_append_right _ (List.mem_singleton_self _), by simpa using hk, hke.symm⟩
        · next hke =>
          obtain ⟨a, hm, h1, h2⟩ := h.kept_of_pending hke hk
          exact ⟨a, List.mem_append_left _ hm, h1, h2⟩
      · rw [ha]
        intro a hm hx
        rcases List.mem_append.mp hm with hm | hm
        · simpa using h.expired_due a (hsub a hm) hx
        · obtain rfl : a = _ := by simpa using hm
          simp at hx
      · rw [schedAdd_events_length _ _ _ (by rw [h.events_length]; exact he)]; simpa using h.events_length
    · omega
  · rw [schedAdd_of_full d v hr]
    exact (h.remove e).congr (by simp) (by simp) (by simp) (by simp) (by simp)

theorem State.SchedOk.client {s : State} (h : s.SchedOk) (c : ClientCall) : (clientCall c s).SchedOk := by
  unfold clientCall
  split
  · split
    · next e _ _ he => exact h.add _ _ (by simp only [Config.isExternal, Bool.and_eq_true, decide_eq_true_eq] at he; exact he.2)
    · exact h
  · split
    · exact h.remove _
    · exact h

theorem State.SchedOk.clients {s : State} (h : s.SchedOk) (l : List ClientCall) :
    (l.foldl (fun s c => clientCall c s) s).SchedOk := by
  induction l generalizing s with
  | nil => exact h
  | cons c l ih => exact ih (h.client c)

theorem State.SchedOk.expire {s : State} (h : s.SchedOk) (id : Nat) : (alarmExpire id s).SchedOk := by
  have key : ∀ a : Alarm, ∃ x : Bool, (if a.id = id ∧ a.due ≤ s.now then { a with expired := true } else a) =
      { a with expired := x } ∧ (x = false → a.expired = false) ∧ (x = true → a.expired = true ∨ a.due ≤ s.now) := by
    intro a
    split
    · next hc => exact ⟨true, rfl, by simp, fun _ => .inr hc.2⟩
    · exact ⟨a.expired, rfl, fun hf => hf, .inl⟩
  constructor
  · refine List.pairwise_map.mpr (h.ids_rising.imp fun {a b} hab => ?_)
    obtain ⟨x, hx, -⟩ := key a
    obtain ⟨y, hy, -⟩ := key b
    rw [hx, hy]; exact hab
  · intro b hb
    obtain ⟨a, ha, rfl⟩ := List.mem_map.mp hb
    obtain ⟨x, hx, -⟩ := key a
    rw [hx]; exact h.ids_fresh a ha
  · simpa [alarmExpire] using h.room
  · intro b hb hbx
    obtain ⟨a, ha, rfl⟩ := List.mem_map.mp hb
    obtain ⟨x, hx, h1, -⟩ := key a
    rw [hx] at hbx ⊢
    exact h.unexpired_pending a ha (h1 hbx)
  · intro k i hp
    obtain ⟨a, ha, h1, h2⟩ := h.pending_entry k i hp
    refine ⟨_, List.mem_map_of_mem ha, ?_⟩
    obtain ⟨x, hx, -⟩ := key a
    rw [hx]; exact ⟨h1, h2⟩
  · intro b hb hbx
    obtain ⟨a, ha, rfl⟩ := List.mem_map.mp hb
    obtain ⟨x, hx, -, h2⟩ := key a
    rw [hx] at hbx ⊢
    rcases h2 hbx with h2 | h2
    · exact h.expired_due a ha h2
    · exact h2
  · exact h.events_length

/-- The return from a handler, for an entry that is still in the table. -/
theorem State.SchedOk.handlerReturn {s : State} (h : s.SchedOk) {a : Alarm} (ha : a ∈ s.alarms)
    (hx : a.expired = true) (r : BitVec 32) : (handlerReturn a r s).SchedOk := by
  have drop : ∀ {u : State}, u.alarms = s.alarms → u.now = s.now → u.nextAlarmId = s.nextAlarmId → u.cfg = s.cfg →
      u.events.length = s.events.length →
      (∀ k, u.pending k = if k = a.ev ∧ s.pending k = some a.id then none else s.pending k) →
      (u.dropAlarm a.id).SchedOk := by
    intro u h1 h2 h3 h4 h5 h6
    have hsub : ∀ b, b ∈ (u.dropAlarm a.id).alarms → b ∈ s.alarms ∧ b.id ≠ a.id := fun b hb => by
      simpa [State.dropAlarm, h1] using hb
    constructor
    · simp only [State.dropAlarm, h1]; exact h.ids_rising.filter _
    · intro b hb; simpa [h3] using h.ids_fresh b (hsub b hb).1
    · simp only [State.dropAlarm, h1, h4]; exact Nat.le_trans (List.length_filter_le _ _) h.room
    · intro b hb hbx
      have hbp := h.unexpired_pending b (hsub b hb).1 hbx
      have : u.pending b.ev = some b.id := by
        rw [h6, if_neg, hbp]
        rintro ⟨-, hpa⟩
        exact (hsub b hb).2 (by simpa using hbp.symm.trans hpa)
      simpa using this
    · intro k i hk
      have hk : u.pending k = some i := by simpa using hk
      rw [h6] at hk
      split at hk
      · simp at hk
      · next hn =>
        obtain ⟨b, hb, hbi, hbe⟩ := h.pending_entry k i hk
        refine ⟨b, ?_, hbi, hbe⟩
        simp only [State.dropAlarm, h1, List.mem_filter, bne_iff_ne, ne_eq]
        refine ⟨hb, fun hid => hn ?_⟩
        have := h.eq_of_id hb ha hid
        subst this
        exact ⟨hbe.symm, by rw [hbi]; assumption⟩
    · intro b hb hbx; simpa [h2] using h.expired_due b (hsub b hb).1 hbx
    · simpa [h4, h5] using h.events_length
  unfold Machine.handlerReturn
  split
  · next hp =>
    refine drop rfl rfl rfl rfl rfl (fun k => ?_)
    rw [if_neg]
    rintro ⟨rfl, hk⟩
    exact hp hk
  · next hp =>
    have hp : s.pending a.ev = some a.id := by simpa using hp
    split
    · refine drop (by simp) (by simp) (by simp) (by simp)
        (length_setSlot _ (State.lt_length_of_pending hp)) (fun k => ?_)
      rw [State.pending_setPending]
      by_cases hk : k = a.ev
      · subst hk; simp [hp]
      · simp [hk]
    · have key : ∀ b ∈ s.alarms, b.id = a.id → b = a := fun b hb hid => h.eq_of_id hb ha hid
      constructor
      · refine List.pairwise_map.mpr (h.ids_rising.imp fun {b c} hbc => ?_)
        split <;> split <;> exact hbc
      · intro c hc
        obtain ⟨b, hb, rfl⟩ := List.mem_map.mp hc
        have := h.ids_fresh b hb
        split <;> exact this
      · simpa [State.rearmAlarm] using h.room
      · intro c hc hcx
        obtain ⟨b, hb, rfl⟩ := List.mem_map.mp hc
        split at hcx
        · next hid =>
          rw [if_pos hid]
          have := key b hb hid
          subst this
          exact hp
        · next hid =>
          rw [if_neg hid]
          exact h.unexpired_pending b hb hcx
      · intro k i hk
        obtain ⟨b, hb, hbi, hbe⟩ := h.pending_entry k i hk
        refine ⟨_, List.mem_map_of_mem hb, ?_⟩
        split <;> exact ⟨hbi, hbe⟩
      · intro c hc hcx
        obtain ⟨b, hb, rfl⟩ := List.mem_map.mp hc
        split at hcx
        · simp at hcx
        · next hid => rw [if_neg hid]; exact h.expired_due b hb hcx
      · exact h.events_length

end Sys2Proof.Machine
end

