-- ==== Sys2Proof/Laws/PerInstr.lean ====
section
/-! SUPPORT. A family of statements about every command, one lemma per constructor: the encoding of a command carries
its opcode in bits 63:56 (`30_encoding.md` R80, R83). -/

namespace Sys2Proof.Laws

/-- The opcode field of a command's word is the command's opcode. -/
def OpcodeField.Statement (i : Instr) : Prop := opField (encode i) = i.opcode

/-- The opcode field of a word put together from its three fields. -/
theorem opField_fields (op arg : BitVec 8) (imm : Imm) : opField (op ++ arg ++ imm) = op := by
  unfold opField
  rw [BitVec.append_assoc]
  apply BitVec.eq_of_getLsbD_eq
  intro i hi
  simp only [BitVec.getLsbD_extractLsb', hi, decide_true, Bool.true_and, BitVec.getLsbD_cast, BitVec.getLsbD_append]
  have h : ¬ 56 + i < 8 + 48 := by omega
  simp only [h, if_false]
  congr 1
  omega

theorem OpcodeField.selCh (n : BitVec 5) : OpcodeField.Statement (.selCh n) := opField_fields _ _ _
theorem OpcodeField.setWctrl (v : BitVec 8) : OpcodeField.Statement (.setWctrl v) := opField_fields _ _ _
theorem OpcodeField.setWfreq (f : BitVec 16) : OpcodeField.Statement (.setWfreq f) := opField_fields _ _ _
theorem OpcodeField.setWstart (a : WaveQ) : OpcodeField.Statement (.setWstart a) := opField_fields _ _ _
theorem OpcodeField.setWend (a : WaveQ) : OpcodeField.Statement (.setWend a) := opField_fields _ _ _
theorem OpcodeField.setWaddr (a : WaveQ) : OpcodeField.Statement (.setWaddr a) := opField_fields _ _ _
theorem OpcodeField.setRctrl (v : BitVec 8) : OpcodeField.Statement (.setRctrl v) := opField_fields _ _ _
theorem OpcodeField.setRrate (r : BitVec 8) : OpcodeField.Statement (.setRrate r) := opField_fields _ _ _
theorem OpcodeField.setRstart (v : RampQ) : OpcodeField.Statement (.setRstart v) := opField_fields _ _ _
theorem OpcodeField.setRend (v : RampQ) : OpcodeField.Statement (.setRend v) := opField_fields _ _ _
theorem OpcodeField.setRvol (v : RampQ) : OpcodeField.Statement (.setRvol v) := opField_fields _ _ _
theorem OpcodeField.setPan (p : BitVec 4) : OpcodeField.Statement (.setPan p) := opField_fields _ _ _
theorem OpcodeField.getCh : OpcodeField.Statement (.getCh) := opField_fields _ _ _
theorem OpcodeField.getWctrl : OpcodeField.Statement (.getWctrl) := opField_fields _ _ _
theorem OpcodeField.getWfreq : OpcodeField.Statement (.getWfreq) := opField_fields _ _ _
theorem OpcodeField.getWstart : OpcodeField.Statement (.getWstart) := opField_fields _ _ _
theorem OpcodeField.getWend : OpcodeField.Statement (.getWend) := opField_fields _ _ _
theorem OpcodeField.getWaddr : OpcodeField.Statement (.getWaddr) := opField_fields _ _ _
theorem OpcodeField.getRctrl : OpcodeField.Statement (.getRctrl) := opField_fields _ _ _
theorem OpcodeField.getRrate : OpcodeField.Statement (.getRrate) := opField_fields _ _ _
theorem OpcodeField.getRstart : OpcodeField.Statement (.getRstart) := opField_fields _ _ _
theorem OpcodeField.getRend : OpcodeField.Statement (.getRend) := opField_fields _ _ _
theorem OpcodeField.getRvol : OpcodeField.Statement (.getRvol) := opField_fields _ _ _
theorem OpcodeField.getPan : OpcodeField.Statement (.getPan) := opField_fields _ _ _
theorem OpcodeField.reset (w : BitVec 16) : OpcodeField.Statement (.reset w) := opField_fields _ _ _
theorem OpcodeField.getMode : OpcodeField.Statement (.getMode) := opField_fields _ _ _
theorem OpcodeField.setVoices (n : BitVec 6) : OpcodeField.Statement (.setVoices n) := opField_fields _ _ _
theorem OpcodeField.getVoices : OpcodeField.Statement (.getVoices) := opField_fields _ _ _
theorem OpcodeField.getRate : OpcodeField.Statement (.getRate) := opField_fields _ _ _
theorem OpcodeField.getIrqst : OpcodeField.Statement (.getIrqst) := opField_fields _ _ _
theorem OpcodeField.ackVirq : OpcodeField.Statement (.ackVirq) := opField_fields _ _ _
theorem OpcodeField.memAddr (a : Addr) : OpcodeField.Statement (.memAddr a) := opField_fields _ _ _
theorem OpcodeField.getMemaddr : OpcodeField.Statement (.getMemaddr) := opField_fields _ _ _
theorem OpcodeField.memPoke (v : Byte) : OpcodeField.Statement (.memPoke v) := opField_fields _ _ _
theorem OpcodeField.memPeek : OpcodeField.Statement (.memPeek) := opField_fields _ _ _
theorem OpcodeField.tmrCfg (t : BitVec 1) (reload : BitVec 8) (raiseIrq masked run : Bool) : OpcodeField.Statement (.tmrCfg t reload raiseIrq masked run) := opField_fields _ _ _
theorem OpcodeField.tmrAck (mask : BitVec 2) : OpcodeField.Statement (.tmrAck mask) := opField_fields _ _ _
theorem OpcodeField.getTmr (t : BitVec 1) : OpcodeField.Statement (.getTmr t) := opField_fields _ _ _
theorem OpcodeField.dmaSetup (auto w16 : Bool) (total : BitVec 32) : OpcodeField.Statement (.dmaSetup auto w16 total) := opField_fields _ _ _
theorem OpcodeField.dmaInterval (us : BitVec 32) : OpcodeField.Statement (.dmaInterval us) := opField_fields _ _ _
theorem OpcodeField.dmaAddr (a : Addr) : OpcodeField.Statement (.dmaAddr a) := opField_fields _ _ _
theorem OpcodeField.getDmaaddr : OpcodeField.Statement (.getDmaaddr) := opField_fields _ _ _
theorem OpcodeField.setDmactl (v : BitVec 8) : OpcodeField.Statement (.setDmactl v) := opField_fields _ _ _
theorem OpcodeField.getDmactl : OpcodeField.Statement (.getDmactl) := opField_fields _ _ _
theorem OpcodeField.fifoPush (b : Byte) : OpcodeField.Statement (.fifoPush b) := opField_fields _ _ _
theorem OpcodeField.fifoPop : OpcodeField.Statement (.fifoPop) := opField_fields _ _ _
theorem OpcodeField.getFifo : OpcodeField.Statement (.getFifo) := opField_fields _ _ _
theorem OpcodeField.evAdd (e : BitVec 8) (delayUs : BitVec 32) (value : BitVec 16) : OpcodeField.Statement (.evAdd e delayUs value) := opField_fields _ _ _
theorem OpcodeField.evRemove (e : BitVec 8) : OpcodeField.Statement (.evRemove e) := opField_fields _ _ _
theorem OpcodeField.getEv (e : BitVec 8) : OpcodeField.Statement (.getEv e) := opField_fields _ _ _
theorem OpcodeField.tick (inL inR : BitVec 24) : OpcodeField.Statement (.tick inL inR) := opField_fields _ _ _
theorem OpcodeField.wait (us : BitVec 48) : OpcodeField.Statement (.wait us) := opField_fields _ _ _

end Sys2Proof.Laws
end

