-- ==== Sys2Proof/Tests/Slice0.lean ====
section
/-! SUPPORT. Tests: well-formedness, the decoding of every command from a word written out from `30_encoding.md` R80 and
R83, one or two steps of each command with the values of `95_test_vectors.md`, and a witness for every statement that
has hypotheses. -/

namespace Sys2Proof.Tests

open Sys2Proof Sys2Proof.Machine

/-! ### Well-formedness (R85): under the vectors' configuration external events are 3 to 6 -/

theorem test_wf_refuses_armed_block_event : (Instr.evAdd 0 100 0).wf vectorConfig = false := by decide
theorem test_wf_refuses_last_block_event : (Instr.evAdd 2 100 0).wf vectorConfig = false := by decide
theorem test_wf_refuses_armed_event_out_of_range : (Instr.evAdd 7 100 0).wf vectorConfig = false := by decide
theorem test_wf_refuses_removed_block_event : (Instr.evRemove 2).wf vectorConfig = false := by decide
theorem test_wf_refuses_removed_event_out_of_range : (Instr.evRemove 7).wf vectorConfig = false := by decide
theorem test_wf_refuses_read_event_out_of_range : (Instr.getEv 7).wf vectorConfig = false := by decide
theorem test_wf_accepts_external_events :
    (Instr.evAdd 3 100 0).wf vectorConfig && (Instr.evRemove 6).wf vectorConfig && (Instr.getEv 0).wf vectorConfig &&
      (Instr.getEv 6).wf vectorConfig && (Instr.setVoices 63).wf vectorConfig = true := by decide

/-! ### Decoding: `op << 56 | arg << 48 | imm`, words of sections S1 to S9 and 2.1 to 2.9 where they have one -/

theorem test_decode_channel_writes :
    [0x0100000000000005, 0x02000000000000FE, 0x030000000000FFFF, 0x04000003FFFFFFFF, 0x0500000000019000,
      0x0600000000001200, 0x07000000000000FF, 0x0800000000000041, 0x0900000000FFFFFF, 0x0A00000000040000,
      0x0B00000000FFFC00, 0x0C00000000000009].map (fun w => decode (BitVec.ofNat 64 w)) =
    [some (.selCh 5), some (.setWctrl 0xFE), some (.setWfreq 0xFFFF), some (.setWstart 0x3FFFFFFFF),
      some (.setWend 0x19000), some (.setWaddr 0x1200), some (.setRctrl 0xFF), some (.setRrate 0x41),
      some (.setRstart 0xFFFFFF), some (.setRend 0x40000), some (.setRvol 0xFFFC00), some (.setPan 9)] := by decide

theorem test_decode_channel_reads :
    [0x2155AAAAAAAAAAAA, 0x2200000000000000, 0x2300000000000000, 0x2400000000000000, 0x2500000000000000,
      0x2600000000000000, 0x2700000000000000, 0x2800000000000000, 0x2900000000000000, 0x2A00000000000000,
      0x2B00000000000000, 0x2C00000000000000].map (fun w => decode (BitVec.ofNat 64 w)) =
    [some .getCh, some .getWctrl, some .getWfreq, some .getWstart, some .getWend, some .getWaddr, some .getRctrl,
      some .getRrate, some .getRstart, some .getRend, some .getRvol, some .getPan] := by decide

theorem test_decode_global :
    [0x4000000000000006, 0x4100000000000000, 0x4200000000000014, 0x4300000000000000, 0x4400000000000000,
      0x4500000000000000, 0x4600000000000000, 0x4700000000123456, 0x4800000000000000, 0x490000000000007F,
      0x4A00000000000000, 0x4B010000000002FF, 0x4C01000000000000, 0x4D01000000000000].map
        (fun w => decode (BitVec.ofNat 64 w)) =
    [some (.reset 6), some .getMode, some (.setVoices 20), some .getVoices, some .getRate, some .getIrqst,
      some .ackVirq, some (.memAddr 0x123456), some .getMemaddr, some (.memPoke 0x7F), some .memPeek,
      some (.tmrCfg 1 0xFF false true false), some (.tmrAck 1), some (.getTmr 1)] := by decide

theorem test_decode_dma_and_fifo :
    [0x6002000000000009, 0x6100000000000064, 0x6200000000001000, 0x6300000000000000, 0x6400000000000005,
      0x6500000000000000, 0x6600000000000010, 0x6700000000000000, 0x6800000000000000].map
        (fun w => decode (BitVec.ofNat 64 w)) =
    [some (.dmaSetup false true 9), some (.dmaInterval 100), some (.dmaAddr 0x1000), some .getDmaaddr,
      some (.setDmactl 5), some .getDmactl, some (.fifoPush 0x10), some .fifoPop, some .getFifo] := by decide

theorem test_decode_scheduler_and_environment :
    [0x80030009000003E8, 0x8104000000000000, 0x8204000000000000, 0xA0007FFFFF800000, 0xA1000000000007D0].map
        (fun w => decode (BitVec.ofNat 64 w)) =
    [some (.evAdd 3 1000 9), some (.evRemove 4), some (.getEv 4), some (.tick 0x800000 0x7FFFFF),
      some (.wait 2000)] := by decide

/-- Section 2.9: ignored bits, and three undefined opcodes. -/
theorem test_decode_ignores_unused_bits_and_refuses_gaps :
    [0x01FF00000000FFE3, 0x4B03000000000400, 0x0000000000000000, 0xFF00000000000005, 0x0D00000000000001].map
        (fun w => decode (BitVec.ofNat 64 w)) =
    [some (.selCh 3), some (.tmrCfg 1 0 false false true), none, none, none] := by decide

/-- The flags of `TMR_CFG` one by one: `imm[8]` raises, `imm[9]` masks, `imm[10]` runs (R83). -/
theorem test_decode_timer_flags :
    [0x4B00000000000100, 0x4B00000000000200, 0x4B00000000000400].map (fun w => decode (BitVec.ofNat 64 w)) =
    [some (.tmrCfg 0 0 true false false), some (.tmrCfg 0 0 false true false),
      some (.tmrCfg 0 0 false false true)] := by decide

theorem test_encode_gives_the_written_words :
    [Instr.setWend 0x19000, .tmrCfg 1 0xFE true false true, .dmaSetup true true 2, .evAdd 3 1000 9,
      .tick 0x0004D2 0xFFFFFB].map encode =
    [0x0500000000019000, 0x4B010000000005FE, 0x6003000000000002, 0x80030009000003E8,
      0xA000FFFFFB0004D2] := by decide

/-- The host's two questions on one row: the decoder's answer, and the next step runs it. -/
theorem test_decode_table_word : decodeTableWord 64 0x0100000000000005 = some (.selCh 5) := by decide

/-! ### Helpers -/

/-- The state after a command. -/
def after (i : Instr) (s : State) : State :=
  match exec i s with
  | .next t => t
  | _ => s

/-- What a command hands back. -/
def handed (i : Instr) (s : State) : Option Nat := (after i s).result.map BitVec.toNat

/-- Boot, with channel 3 selected. -/
def s3 : State := State.reset.onG (fun g => { g with selChannel := 3 })

/-- The values of section S3 in channel 3. -/
def ch3 : Channel :=
  { bootChannel vectorConfig with
    waveControl := 0xFE, waveFreq := 0xFFFF, waveStart := 0x3FFFFFFFF, waveEnd := 0x19000, waveAddr := 0x1200
    rampControl := 0xFF, rampRate := 0x41, rampStart := 0xFFFFFF, rampEnd := 0x40000, rampVol := 0xFFFC00
    panPosition := 9 }

def full3 : State := s3.setChan 3 ch3

theorem test_withFetchWord_runs_next :
    (match step (s3.withFetchWord 64 0x0100000000000005) with
      | .next t => t.g.selChannel
      | _ => 0) = 5 := by decide

/-! ### Channel registers, sections S3 and 2.3 -/

theorem test_selCh : (after (.selCh 5) State.reset).g.selChannel = 5 := by decide
theorem test_setWctrl : ((after (.setWctrl 0xFE) s3).chan 3).waveControl = 0xFE ∧
    ((after (.setWctrl 0xFE) s3).chan 0).waveControl = 0x01 := by decide
theorem test_setWfreq : ((after (.setWfreq 0x2345) s3).chan 3).waveFreq = 0x2345 ∧
    ((after (.setWfreq 0x2345) s3).chan 3).waveIncrement = 0x2345 := by decide
theorem test_setWstart : ((after (.setWstart 0x3FFFFFFFF) s3).chan 3).waveStart = 0x3FFFFFFFF := by decide
theorem test_setWend : ((after (.setWend 0x19000) s3).chan 3).waveEnd = 0x19000 := by decide
theorem test_setWaddr : ((after (.setWaddr 0x1200) s3).chan 3).waveAddr = 0x1200 := by decide
theorem test_setRctrl : ((after (.setRctrl 0xFF) s3).chan 3).rampControl = 0xFF := by decide
/-- Row 9 of section 2.3. -/
theorem test_setRrate :
    [0x00#8, 0x01#8, 0x3F#8, 0x41#8, 0x7F#8, 0x81#8, 0xBF#8, 0xC1#8, 0xFF#8].map
      (fun r => ((after (.setRrate r) s3).chan 3).rampIncrement) =
    [0, 0x400, 0xFC00, 0x80, 0x1F80, 0x10, 0x3F0, 0x2, 0x7E] := by decide
theorem test_setRstart : ((after (.setRstart 0xFFFFFF) s3).chan 3).rampStart = 0xFFFFFF := by decide
theorem test_setRend : ((after (.setRend 0x40000) s3).chan 3).rampEnd = 0x40000 := by decide
/-- Rows 7 and 8 of section 2.3. -/
theorem test_setRvol_clamps :
    ((after (.setRvol 0xFFFC00) { s3 with cfg := { s3.cfg with maxRamp := 0xFFF000 } }).chan 3).rampVol =
      0xFFEFFF := by decide
theorem test_setPan_recomputes :
    ((after (.setPan 0) full3).chan 3).attenL = 245745 ∧ ((after (.setPan 0) full3).chan 3).attenR = 0 := by decide
theorem test_getCh : handed .getCh s3 = some 3 := by decide
theorem test_getWctrl : handed .getWctrl full3 = some 0xFE := by decide
theorem test_getWfreq : handed .getWfreq full3 = some 0xFFFF := by decide
theorem test_getWstart : handed .getWstart full3 = some 0x3FFFFFFFF := by decide
theorem test_getWend : handed .getWend full3 = some 0x19000 := by decide
theorem test_getWaddr : handed .getWaddr full3 = some 0x1200 := by decide
theorem test_getRctrl : handed .getRctrl full3 = some 0xFF := by decide
theorem test_getRrate : handed .getRrate full3 = some 0x41 := by decide
theorem test_getRstart : handed .getRstart full3 = some 0xFFFFFF := by decide
theorem test_getRend : handed .getRend full3 = some 0x40000 := by decide
theorem test_getRvol : handed .getRvol full3 = some 0xFFFC00 := by decide
theorem test_getPan : handed .getPan full3 = some 9 := by decide

/-! ### Global registers, sections S1, S7 and 2.8 -/

/-- Boot with a mode byte. -/
def withMode (m : BitVec 8) : State := State.reset.onG (fun g => { g with mode := m })

/-- The causes of section 2.8, brought up to date. -/
def caused : State :=
  updateIrq ((withMode 0x05).onG (fun g => { g with waveIrq := 0x24, rampIrq := 0x100020 }))

theorem test_reset_halted_to_running : (after (.reset 7) State.reset).g.mode = 0x01 := by decide
theorem test_reset_word_six_reads_zero :
    (after (.reset 6) (withMode 0x07)).g.mode = 0x00 ∧ (after (.reset 7) (withMode 0x01)).g.mode = 0x07 := by decide
theorem test_getMode : handed .getMode (withMode 0x07) = some 7 := by decide
theorem test_setVoices :
    [0#6, 13#6, 14#6, 15#6, 16#6, 31#6, 32#6, 33#6, 63#6].map
      (fun n => ((after (.setVoices n) State.reset).g.activeVoiceCount.toNat,
        (after (.setVoices n) State.reset).g.baseRate)) =
    [(14, 44100), (14, 44100), (14, 44100), (15, 41160), (16, 38587), (31, 19916), (32, 19293), (32, 19293),
      (32, 19293)] := by decide
/-- Row 10 of section 2.3: 28 voices at a fixed rate. -/
theorem test_setVoices_rescales :
    ((after (.setVoices 28)
      ({ State.reset with cfg := { vectorConfig with fixedRateFlag := true } }.setChan 3
        { ch3 with waveFreq := 0x400 })).chan 3).waveIncrement = 0x200 := by decide
theorem test_getVoices : handed .getVoices State.reset = some 14 := by decide
theorem test_getRate : handed .getRate State.reset = some 44100 := by decide
theorem test_getIrqst : handed .getIrqst caused = some 0x18 := by decide
theorem test_ackVirq : handed .ackVirq caused = some 0x22 ∧ handed .ackVirq (after .ackVirq caused) = some 0x65 := by
  decide
/-- The third acknowledge of section 2.8 finds nothing pending. -/
theorem test_ackVirq_updates_line : (after .ackVirq (after .ackVirq caused)).g.irqLine = false ∧
    (after .ackVirq (after .ackVirq caused)).g.rampIrq = 0x100000 := by decide
theorem test_memAddr : (after (.memAddr 0x123456) State.reset).g.memAddr = 0x123456 := by decide
theorem test_getMemaddr : handed .getMemaddr (after (.memAddr 0x123456) State.reset) = some 0x123456 := by decide
/-- Section 2.8: address `0x100010` reaches `Mem[0x00010]`. -/
theorem test_memPoke_masks : (after (.memPoke 0x7F) (after (.memAddr 0x100010) State.reset)).mem = [(0x10, 0x7F)] := by
  decide
theorem test_memPeek :
    handed .memPeek { State.reset with mem := [(0x10, 0x7F)], g := { State.reset.g with memAddr := 0x10 } } =
      some 0x7F := by decide

/-- Row 6 of section 2.8. -/
def timed : State := after (.tmrCfg 0 0xF0 true false true) State.reset

theorem test_tmrCfg_starts : timed.alarms = [⟨0, 1, 1280, false⟩] ∧ handed (.getTmr 0) timed = some 0x0000050005F0 := by
  decide
theorem test_tmrCfg_stops : (after (.tmrCfg 0 0xF0 true false false) timed).alarms = [] ∧
    (after (.tmrCfg 0 0xF0 true false false) timed).tmr0.running = false := by decide
/-- Rows 8 and 9 of section 2.8. -/
theorem test_tmrAck :
    handed (.getTmr 0) (after (.wait 1280) timed) = some 0x000005000DF0 ∧
      handed (.getTmr 0) (after (.tmrAck 1) (after (.wait 1280) timed)) = some 0x0000050005F0 := by decide
/-- Section S3. -/
theorem test_getTmr : handed (.getTmr 0) (after (.tmrCfg 0 0x12 true true false) State.reset) = some 0x4A600312 := by
  decide

/-! ### DMA and FIFO, sections S5 and 2.2 -/

/-- The setup of section S5, with the host's first two bytes. -/
def prepared : State :=
  { State.reset with
    g := { State.reset.g with dmaCfgTotal := 4, dmaCfgInterval := 100, dmaAddr := 0x1000 }
    env := ⟨[0x11, 0x22], [], 0⟩ }

/-- The engine of section S5 started. -/
def moving : State := after (.setDmactl 0x05) prepared

theorem test_dmaSetup : (after (.dmaSetup true true 2) State.reset).g.dmaCfgTotal = 2 ∧
    (after (.dmaSetup true true 2) State.reset).g.dmaCfgUnit = .two := by decide
theorem test_dmaInterval : (after (.dmaInterval 50) State.reset).g.dmaCfgInterval = 50 := by decide
theorem test_dmaAddr : (after (.dmaAddr 0x1000) State.reset).g.dmaAddr = 0x1000 := by decide
theorem test_getDmaaddr : handed .getDmaaddr prepared = some 0x1000 := by decide
theorem test_setDmactl_starts : moving.alarms = [⟨0, 0, 100, false⟩] ∧
    moving.dma = ⟨4, 4, .one, 100, true, false, .idle⟩ := by decide
/-- Row 2 of section 2.2. -/
theorem test_setDmactl_cancels :
    (after (.setDmactl 0x06) moving).dma.running = false ∧ (after (.setDmactl 0x06) moving).alarms = [] := by decide
theorem test_getDmactl_clears_tc :
    handed .getDmactl (State.reset.onG (fun g => { g with dmaControl := 0x104 })) = some 0x104 ∧
      (after .getDmactl (State.reset.onG (fun g => { g with dmaControl := 0x104 }))).g.dmaControl = 0x004 := by decide

/-- A FIFO with three bytes pushed, rows 8 to 11 of section 2.2. -/
def three : State :=
  { State.reset with fifo := ⟨[(0, 0x10), (1, 0x11), (2, 0x12)], 3, 0, 3, .stopped⟩ }

theorem test_fifoPush_reaches_threshold : handed .getFifo (after (.fifoPush 0x13) three) = some 0x10004 := by decide
theorem test_fifoPush_rejects_when_full :
    (after (.fifoPush 0x1F) { State.reset with fifo := ⟨[], 15, 0, 15, .running⟩ }).emitted = [.log .fifoFull] := by
  decide
theorem test_fifoPop_stopped : handed .fifoPop three = some 0 ∧ (after .fifoPop three).fifo.count = 3 := by decide
theorem test_fifoPop_running : handed .fifoPop (after (.fifoPush 0x13) three) = some 0x110 := by decide
theorem test_getFifo : handed .getFifo three = some 3 := by decide

/-! ### Scheduler, sections S4, S8 and 2.1 -/

/-- Row 1 of section 2.1. -/
def armed : State := after (.evAdd 3 1000 7) State.reset

theorem test_evAdd : armed.alarms = [⟨0, 3, 1000, false⟩] ∧ armed.event 3 = ⟨some 0, 7⟩ := by decide
/-- Row 2 of section 2.1. -/
theorem test_evAdd_again :
    (after (.evAdd 3 50 0) armed).alarms = [⟨1, 3, 50, false⟩] ∧ (after (.evAdd 3 50 0) armed).event 3 = ⟨some 1, 0⟩ := by
  decide
theorem test_evRemove : (after (.evRemove 3) armed).alarms = [] ∧ (after (.evRemove 3) armed).pending 3 = none := by decide
/-- Row 9 of section 2.1: an event of the block itself is not armed. -/
theorem test_evAdd_refuses_block_event : (after (.evAdd 0 100 0) State.reset).alarms = [] := by decide
theorem test_getEv : handed (.getEv 3) armed = some 1 ∧ handed (.getEv 0) armed = some 0 := by decide
theorem test_getEv_out_of_range :
    handed (.getEv 7) { armed with cfg := { armed.cfg with readSentinel := 0xFF } } = some 0xFF := by decide

/-! ### Environment words, sections S5, S8 and 2.7 -/

/-- Row 11 of section 2.7. -/
theorem test_tick_passes_inputs_through : handed (.tick 0x0004D2 0xFFFFFB) State.reset = some 0xFFFB04D2 := by
  decide +kernel
/-- Row 1 of section 2.7. -/
theorem test_tick_mixes_hard_left :
    handed (.tick 0 0)
      ({ State.reset with mem := [(0x20, 0x7F), (0x21, 0x7F)] }.setChan 0
        { bootChannel vectorConfig with waveAddr := 0x8000, attenL := 245745, attenR := 0 }) = some 0x770E := by
  decide +kernel
/-- Section S8: two fires, the second 500 microseconds after the first one's intended time. -/
theorem test_wait_fires_without_drift :
    (after (.wait 2000)
      { State.reset with
        now := 250, alarms := [⟨0, 3, 1250, false⟩], nextAlarmId := 1
        events := (State.reset.setEvent 3 ⟨some 0, 9⟩).events, env := ⟨[], [⟨[], 500⟩, ⟨[], 0⟩], 0⟩ }).emitted =
      [.extFire 3 9 1250, .extFire 3 9 1750] := by decide +kernel
/-- Section S5, the first tick of the engine. -/
theorem test_wait_runs_the_dma_engine :
    (after (.wait 100) moving).mem = [(0x1000, 0x11)] ∧ (after (.wait 100) moving).alarms = [⟨0, 0, 200, false⟩] := by
  decide +kernel

/-! ### Generators and fetch, sections 2.4 to 2.6 -/

/-- The voice of section 2.4, at an address and with a control byte. -/
def wave (addr : WaveQ) (control : BitVec 8) : Channel :=
  { bootChannel vectorConfig with
    waveStart := 0x2800, waveEnd := 0x5000, waveIncrement := 0x0C80, waveAddr := addr, waveControl := control }

/-- Rows 1 to 6 and 8 of section 2.4. -/
theorem test_advanceWave :
    [wave 0x4C00 0x02, wave 0x2C00 0x12, wave 0x4C00 0x06, wave 0x2C00 0x16, wave 0x4C00 0x00, wave 0x2C00 0x10,
      wave 0x4380 0x02].map (fun c => (c.advanceWave.waveAddr.toNat, c.advanceWave.waveControl.toNat)) =
    [(0x3080, 0x02), (0x4780, 0x12), (0x4780, 0x16), (0x3080, 0x06), (0x5000, 0x01), (0x2800, 0x11),
      (0x5000, 0x02)] := by decide

/-- The voice of section 2.5, at a level and with a control byte. -/
def ramp (level : RampQ) (control : BitVec 8) : Channel :=
  { bootChannel vectorConfig with
    rampStart := 0x10000, rampEnd := 0x40000, rampIncrement := 0xFC00, rampVol := level, rampControl := control }

/-- Rows 1, 4, 5 and 6 of section 2.5. -/
theorem test_advanceRamp :
    [ramp 0x3F000 0x00, ramp 0x3F000 0x02, ramp 0x3F000 0x06, ramp 0x11000 0x16].map (fun c =>
      ((c.advanceRamp vectorConfig).rampVol.toNat, (c.advanceRamp vectorConfig).rampControl.toNat,
        (c.advanceRamp vectorConfig).attenL.toNat)) =
    [(0x40000, 0x01, 2048), (0x1EC00, 0x02, 984), (0x31400, 0x16, 1576), (0x1EC00, 0x06, 984)] := by decide

/-- The memory of section 2.6. -/
def sampled : State :=
  { State.reset with
    mem := [(0x0A, 0x34), (0x0B, 0x12), (0x0D, 0x80), (0x10, 0x40), (0x11, 0x80), (0x12, 0xFF), (0x13, 0x7F)] }

theorem test_fetch_8_bit :
    [0x4000#34, 0x4200#34, 0x43FF#34, 0x4600#34, 0x4900#34].map (sampleAt sampled false) =
    [16384, -8192, -32720, -16512, 7936] := by decide +kernel
theorem test_fetch_16_bit :
    [0x1400#34, 0x1600#34, 0x17FF#34].map (sampleAt sampled true) = [4660, -14054, -32732] := by decide +kernel
theorem test_remap16 :
    [5#24, 6#24, 0x1FFFF#24, 0x20000#24, 0x3FFFF#24, 0x40000#24, 0x40001#24].map (remap16 vectorConfig) =
    [0x0A, 0x0C, 0x3FFFE, 0x00000, 0x3FFFE, 0x40000, 0x40002] := by decide

/-! ### Witnesses: for each statement with hypotheses, states and operands that meet them, at the clauses' boundaries -/

/-- Boot with one stimulus presented. -/
def presented (x : Stimulus) : State := { State.reset with inbox := [x] }

/-- A table of one place that an external event holds. -/
def crowded : State := after (.evAdd 3 1000 0) { State.reset with cfg := { vectorConfig with schedCapacity := 1 } }

theorem witness_StepRunsTheDecodedCommand :
    decode 0x0100000000000005 = some (.selCh 5) ∧ (Instr.selCh 5).format ≠ .env ∧
      decode 0xA100000000000064 = some (.wait 100) ∧ (Instr.wait 100).format = .env ∧
      (presented (.word 0x0100000000000005)).inbox = .word 0x0100000000000005 :: [] ∧
      (presented (.portWord 0x0100000000000005)).inbox = .portWord 0x0100000000000005 :: [] ∧
      (presented (.portWord 0xA100000000000064)).inbox = .portWord 0xA100000000000064 :: [] ∧
      tableWord 64 0x0100000000000005 = 0x0100000000000005 := by decide

theorem witness_UndefinedWordsChangeNoStateAndReadTheSentinel :
    decode 0x0D00000000000001 = none ∧
      (presented (.word 0x0D00000000000001)).inbox = .word 0x0D00000000000001 :: [] ∧
      (presented (.portWord 0x0D00000000000001)).inbox = .portWord 0x0D00000000000001 :: [] := by decide

/-- Calls on the first and the last external event with room and with the table full, and on ids at both ends of the
range; a wait whose end is past and one whose end is to come. -/
theorem witness_AgentStepsDoWhatTheirRulesSay :
    State.reset.inbox = [] ∧ (presented (.timePasses 3)).inbox = .timePasses 3 :: [] ∧
      (presented (.alarmExpire 0)).inbox = .alarmExpire 0 :: [] ∧
      (presented .alarmDispatch).inbox = .alarmDispatch :: [] ∧
      (presented (.audioTick 1 2)).inbox = .audioTick 1 2 :: [] ∧
      (presented (.clientCall (.add 3 9 1))).inbox = .clientCall (.add 3 9 1) :: [] ∧
      (presented (.clientCall (.remove 6))).inbox = .clientCall (.remove 6) :: [] ∧
      3 ≤ 6 ∧ 6 < 3 + State.reset.cfg.extEvents ∧ 3 + State.reset.cfg.extEvents ≤ 7 ∧ 2 < 3 ∧
      (keptAlarms 3 State.reset).length < State.reset.cfg.schedCapacity ∧
      crowded.cfg.schedCapacity ≤ (keptAlarms 4 crowded).length ∧
      (presented (.waitUntil 500)).inbox = .waitUntil 500 :: [] ∧ 500 < State.reset.now + 2 ^ 48 ∧
      499 < { presented (.waitUntil 499) with now := 500 }.now + 2 ^ 48 := by decide

theorem witness_WritesHandNothingBackAndReadsHandBackAValue :
    (Instr.evAdd 3 1 0).wf State.reset.cfg = true ∧ (Instr.evAdd 3 1 0).direction = .write ∧
      (Instr.getEv 6).wf State.reset.cfg = true ∧ (Instr.getEv 6).direction = .read := by decide

theorem witness_NoStepWritesTheConfiguration :
    step (presented (.timePasses 3)) = .next { State.reset with now := 3 } := rfl

theorem vectorConfig_wf : vectorConfig.WF := by decide

/-- A limit below `2^24` (section 2.3, row 7), and the three levels around it. -/
theorem witness_VolumeAndPanWritesRecomputeTheAttenuation :
    { vectorConfig with maxRamp := 0xFFF000 }.WF ∧ (0xFFEFFF#24).toNat < 0xFFF000 ∧ (0xFFF000#24).toNat ≥ 0xFFF000 := by
  decide

theorem witness_WrittenRegistersReadBack :
    State.reset.cfg.WF ∧ ((0xFFFFFF : Imm) &&& lowImm 24).toNat < State.reset.cfg.maxRamp := by decide

theorem witness_DefaultStepFunctionsScaleByTheRate :
    vectorConfig.WF ∧ { vectorConfig with fixedRateFlag := true }.WF ∧ 1 ≤ 1 ∧ 1 ≤ 32 ∧ 32 ≤ 32 ∧
      vectorConfig.waveStepCurve = .standard ∧ vectorConfig.rampStepCurve = .standard ∧
      vectorConfig.fixedRateFlag = false := by decide

/-- A stopped voice; one that lands on the boundary in each direction; a crossing with rollover, with loop, with bounce
and with neither, in each direction, with and without `IRQEN`. -/
theorem witness_AdvanceWaveFollowsTheOutcomeTable :
    [wave 0x4C00 0x01, wave 0x4380 0x02, wave 0x3480 0x12, { wave 0x4C00 0x22 with rampControl := 0x09 },
      { wave 0x2C00 0x12 with rampControl := 0x09 }, wave 0x4C00 0x22, wave 0x2C00 0x12, wave 0x4C00 0x06,
      wave 0x2C00 0x36, wave 0x4C00 0x20, wave 0x2C00 0x10].map (fun c =>
        (ctlStopped c.waveControl, c.waveHit, ctlRollover c.rampControl, ctlLoop c.waveControl,
          ctlBidir c.waveControl)) =
    [(true, true, false, false, false), (false, false, false, true, false), (false, false, false, true, false),
      (false, true, true, true, false), (false, true, true, true, false), (false, true, false, true, false),
      (false, true, false, true, false), (false, true, false, true, true), (false, true, false, true, true),
      (false, true, false, false, false), (false, true, false, false, false)] := by decide

theorem witness_WaveAddressAccumulatesWithoutDrift :
    (wave 0x2800 0x00).waveControl.getLsbD 0 = false ∧
      (∀ n, n < 3 → (Channel.advanceWave^[n] (wave 0x2800 0x00)).waveHit = false) ∧
      (∀ n, n < 3 → (Channel.advanceWave^[n] (wave 0x5000 0x10)).waveHit = false) := by decide

/-- Section S9. -/
def under : Channel :=
  { bootChannel vectorConfig with waveStart := 0x200, waveAddr := 0x300, waveIncrement := 0x400, waveControl := 0x30 }

theorem witness_AnUnderflowingAddressWrapsUnseen :
    under.waveControl.getLsbD 0 = false ∧ under.waveControl.getLsbD 4 = true ∧
      under.waveAddr.toNat < under.waveIncrement.toNat ∧
      under.waveStart.toNat ≤ 2 ^ 34 - (under.waveIncrement.toNat - under.waveAddr.toNat) := by decide

/-- A stopped ramp; a level that lands on the boundary; a crossing with bounce, with loop and with neither, in each
direction. -/
theorem witness_AdvanceRampFollowsItsRule :
    vectorConfig.WF ∧
    [ramp 0x3F000 0x01, ramp 0x30400 0x00, ramp 0x1FC00 0x10, ramp 0x3F000 0x06, ramp 0x11000 0x16, ramp 0x3F000 0x02,
      ramp 0x11000 0x12, ramp 0x3F000 0x20, ramp 0x8000 0x10].map (fun c =>
        (ctlStopped c.rampControl, c.rampHit, ctlLoop c.rampControl, ctlBidir c.rampControl)) =
    [(true, true, false, false), (false, false, false, false), (false, false, false, false),
      (false, true, true, true), (false, true, true, true), (false, true, true, false), (false, true, true, false),
      (false, true, false, false), (false, true, false, false)] := by decide

/-- The least and the greatest bank width. -/
theorem witness_RemapKeepsTheBankAndDoublesTheOffset :
    { vectorConfig with bankBits := 2 }.WF ∧ { vectorConfig with bankBits := 24, memAddrBits := 24 }.WF := by decide

theorem witness_InterpolationLiesBetweenItsSamples : 0 ≤ 1023 ∧ 1023 ≤ 1023 ∧ (-5 : Int) < 7 := by decide

theorem witness_FetchBlendsTheTwoSurroundingSamples :
    sampled.cfg.WF ∧ ((sampled.setChan 0 (wave 0x4200 0x00)).chan 0).waveControl.getLsbD 3 = false ∧
      ((sampled.setChan 0 (wave 0x1600 0x09)).chan 0).waveControl.getLsbD 3 = true := by decide

/-- Channels 0 and 13 are ticked at a count of 14, channels 14 and 31 are not. -/
theorem witness_TickServesEveryActiveVoiceOnce :
    (0 : ChanIdx).val < State.reset.g.activeVoiceCount.toNat ∧ (13 : ChanIdx).val < State.reset.g.activeVoiceCount.toNat ∧
      State.reset.g.activeVoiceCount.toNat ≤ (14 : ChanIdx).val ∧
      State.reset.g.activeVoiceCount.toNat ≤ (31 : ChanIdx).val := by decide

/-- A channel at a pan and a level. -/
def panned (p : BitVec 4) (v : RampQ) : Channel :=
  Channel.updateAtten vectorConfig { bootChannel vectorConfig with panPosition := p, rampVol := v }

theorem panned_ok (p : BitVec 4) (v : RampQ) : (panned p v).Ok vectorConfig 14 :=
  ⟨v.isLt, rfl, rfl, rfl, rfl⟩

theorem witness_QuietVoicesAddNothing :
    (panned 0 0xFFFC00).panPosition = 0 ∧ (panned 15 0xFFFC00).panPosition = 15 ∧
      vectorConfig.attenCurve = .standard ∧ (panned 7 0x3FF).rampVol.toNat < 0x400 ∧ (-1 : Int) < 0 ∧
      (panned 7 0x400).attenL ≠ 0 ∧ (panned 7 0x400).attenR ≠ 0 := by decide

theorem witness_ATickOfSilentVoicesPassesTheInputsThrough :
    ∀ i : ChanIdx, i.val < State.reset.g.activeVoiceCount.toNat →
      (State.reset.chan i).attenL = 0 ∧ (State.reset.chan i).attenR = 0 := by decide

/-- A voice standing on byte `0x10`, the memory address at the alias `0x100010`. -/
def listening : State :=
  (State.reset.onG (fun g => { g with memAddr := 0x100010 })).setChan 0 (wave 0x4000 0x00)

theorem witness_APokedByteIsHeardByTheNextFetch :
    (listening.chan 0).waveControl.getLsbD 3 = false ∧ (listening.chan 0).waveAddr.toNat % 1024 = 0 ∧
      (listening.chan 0).waveAddr.toNat / 1024 % 2 ^ listening.cfg.memAddrBits =
        listening.g.memAddr.toNat % 2 ^ listening.cfg.memAddrBits := by decide

theorem witness_RunningWordStoresTheModeWithoutReset : (0x0007 : BitVec 16).getLsbD 0 = true := by decide

theorem witness_HaltingWordResetsTheDevice : State.reset.cfg.WF ∧ (0x0006 : BitVec 16).getLsbD 0 = false := by decide

theorem witness_ResettingTwiceIsResettingOnce :
    (0x0006 : BitVec 16).getLsbD 0 = false ∧ exec (.reset 0x0006) caused = .next (after (.reset 0x0006) caused) := by
  exact ⟨by decide, rfl⟩

/-- No channel pending at boot; channels 2 and 5 pending after the causes of section 2.8. -/
theorem witness_BlamePointerMovesToTheNextPendingChannel :
    (∀ k : BitVec 5, ¬(k.toNat < State.reset.g.activeVoiceCount.toNat ∧
      (State.reset.g.waveIrq.getLsbD k.toNat = true ∨ State.reset.g.rampIrq.getLsbD k.toNat = true))) ∧
    (∃ k : BitVec 5, k.toNat < caused.g.activeVoiceCount.toNat ∧
      (caused.g.waveIrq.getLsbD k.toNat = true ∨ caused.g.rampIrq.getLsbD k.toNat = true)) := by
  exact ⟨by decide, 2, by decide⟩

/-- The pointer left on channel 20 by a lowered voice count: nothing is acknowledged, and the cause returns with the
count (R271, H12; log 26). -/
def leftBehind : State := after (.setVoices 14) (after (.setVoices 21) (after .ackVirq (after .ackVirq caused)))

theorem witness_AckVirqClearsTheBlamedChannelsCauses :
    leftBehind.g.irqChan = 20 ∧ leftBehind.g.irqLine = false ∧ handed .ackVirq leftBehind = some 0x14 ∧
      (after .ackVirq leftBehind).g.rampIrq = 0x100000 ∧
      (after (.setVoices 21) (after .ackVirq leftBehind)).g.irqLine = true ∧
      handed .ackVirq (after (.setVoices 21) leftBehind) = some 0x54 := by decide

/-- A stop; a running timer; a start with room and with the table full. -/
theorem witness_TimerConfigStartsAndStopsTheTimer :
    timed.cfg.WF ∧ crowded.cfg.WF ∧ (timed.tmr 0).running = true ∧ (State.reset.tmr 1).running = false ∧
      (keptAlarms 2 State.reset).length < State.reset.cfg.schedCapacity ∧ (crowded.tmr 0).running = false ∧
      crowded.cfg.schedCapacity ≤ (keptAlarms 1 crowded).length := by decide

theorem witness_TimerFireMarksTheTimerAndReturnsItsDelay :
    (timed.tmr ((0 : BitVec 32).extractLsb' 0 1)).running = true ∧
      (timed.tmr ((1 : BitVec 32).extractLsb' 0 1)).running = false := by decide

/-- The first and the last external event; room and a full table. -/
theorem witness_EvAddArmsTheEventOrIsRejected :
    3 ≤ (3#8).toNat ∧ (6#8).toNat < 3 + armed.cfg.extEvents ∧ 4 < 3 + crowded.cfg.extEvents ∧
      (keptAlarms 3 armed).length < armed.cfg.schedCapacity ∧
      crowded.cfg.schedCapacity ≤ (keptAlarms 4 crowded).length := by decide

theorem witness_EvRemoveCancelsAndIsIdempotent :
    3 ≤ (3#8).toNat ∧ (3#8).toNat < 3 + armed.cfg.extEvents ∧ (6#8).toNat < 3 + armed.cfg.extEvents := by decide

/-- The bounds of the three ranges: 2 and 3, 6 and 7. -/
theorem witness_EventIdsAreReadOrRefusedByRange :
    (2#8).toNat < 3 ∧ (6#8).toNat < 3 + armed.cfg.extEvents ∧ 3 + armed.cfg.extEvents ≤ (7#8).toNat := by decide

/-- An expired entry that its event has disowned. -/
def stale : State := { State.reset with alarms := [⟨0, 3, 100, true⟩], nextAlarmId := 1, now := 100 }

theorem witness_AStaleFireIsDroppedSilently :
    (⟨0, 3, 100, true⟩ : Alarm) ∈ stale.alarms ∧ stale.pending 3 ≠ some 0 ∧
      (∀ b ∈ stale.alarms, b.expired = true → b ≠ ⟨0, 3, 100, true⟩ → 100 < b.due ∨ (100 = b.due ∧ 0 < b.id)) := by
  decide

/-- The expired alarm of event 3, before one of the same time and one later, with the handler's next answer. -/
def firing (calls : List ClientCall) (r : BitVec 32) : State :=
  { State.reset with
    alarms := [⟨0, 3, 100, true⟩, ⟨1, 4, 100, true⟩, ⟨2, 5, 101, true⟩], nextAlarmId := 3, now := 137
    events := (State.reset.setEvent 3 ⟨some 0, 9⟩).events, env := ⟨[], [⟨calls, r⟩], 0⟩ }

/-- Answers without calls, and answers that remove and that re-arm the event of the handler. -/
theorem witness_AnExternalFireReturnsByItsValue :
    (⟨0, 3, 100, true⟩ : Alarm) ∈ (firing [] 0).alarms ∧ (firing [] 0).pending 3 = some 0 ∧ 3 ≤ 3 ∧
      (∀ b ∈ (firing [] 0).alarms, b.expired = true → b ≠ ⟨0, 3, 100, true⟩ →
        100 < b.due ∨ (100 = b.due ∧ 0 < b.id)) ∧
      (firing [] 0).env.extAnswers = ⟨[], 0⟩ :: [] ∧ (firing [] 500).env.extAnswers = ⟨[], 500⟩ :: [] ∧
      (500 : BitVec 32) ≠ 0 ∧
      (firing [.remove 3] 500).env.extAnswers = ⟨[.remove 3], 500⟩ :: [] ∧
      ([.remove 3].foldl (fun x c => clientCall c x) (firing [.remove 3] 500)).pending 3 ≠ some 0 ∧
      (firing [.add 3 20 7] 500).env.extAnswers = ⟨[.add 3 20 7], 500⟩ :: [] ∧
      3 < 3 + (firing [.add 3 20 7] 500).cfg.extEvents ∧ 0 < (firing [.add 3 20 7] 500).nextAlarmId ∧
      (keptAlarms 3 (firing [.add 3 20 7] 500)).length < (firing [.add 3 20 7] 500).cfg.schedCapacity := by decide

/-- Every entry of the table expired, the clock at `now`. -/
def expiredAt (now : Nat) (s : State) : State :=
  { s with now := now, alarms := s.alarms.map (fun a => { a with expired := true }) }

/-- The alarm of a running timer; the alarm of the DMA engine with more than one unit left and with the last. -/
theorem witness_ADispatchRunsTheHandlerOfTheBlocksEvent :
    (expiredAt 1280 timed).alarms = [⟨0, 1, 1280, true⟩] ∧ (expiredAt 1280 timed).pending 1 = some 0 ∧
      (timerFire ((expiredAt 1280 timed).event 1).value (expiredAt 1280 timed)).2 ≠ 0 ∧
      (expiredAt 100 moving).alarms = [⟨0, 0, 100, true⟩] ∧ (expiredAt 100 moving).pending 0 = some 0 ∧
      (dmaTick (expiredAt 100 moving)).2 ≠ 0 ∧
      (dmaTick (expiredAt 100 { moving with dma := { moving.dma with remaining := 1 } })).2 = 0 := by decide

/-- Section S8, late: answers 500 and 300 after latencies 1137 and 700. -/
def late : State := { armed with env := ⟨[], [⟨[], 500⟩, ⟨[], 300⟩], 0⟩ }

theorem witness_LateFiresDoNotDrift :
    late.alarms = [⟨0, 3, 1000, false⟩] ∧ late.pending 3 = some 0 ∧ 3 ≤ 3 ∧
      late.env.extAnswers = [(1137, (500 : BitVec 32)), (700, 300)].map (fun p => ⟨[], p.2⟩) ++ [] ∧
      (∀ p ∈ [(1137, (500 : BitVec 32)), (700, 300)], p.2 ≠ 0) ∧
      (∀ k, k < [(1137, (500 : BitVec 32)), (700, 300)].length →
        1000 + ((([(1137, (500 : BitVec 32)), (700, 300)]).take k).map (fun p => p.2.toNat)).sum ≤
          late.now + (([(1137, (500 : BitVec 32)), (700, 300)].take (k + 1)).map (fun p => p.1)).sum) := by decide

theorem witness_WaitWithNothingDueOnlyMovesTheClock :
    ∀ a ∈ armed.alarms, a.expired = false ∧ armed.now + (999#48).toNat < a.due := by decide

/-- The state of an armed timer meets the invariants, and no external event is pending in it. -/
theorem witness_WaitWithoutExternalEventsEndsItsLoop : timed.Inv ∧ ∀ e, 3 ≤ e → timed.pending e = none := by
  have hch : ∀ i, timed.chan i = bootChannel vectorConfig := by decide
  have he : timed.events = [⟨none, 0⟩, ⟨some 0, 0⟩, ⟨none, 0⟩, ⟨none, 0⟩, ⟨none, 0⟩, ⟨none, 0⟩, ⟨none, 0⟩] := by decide
  have hp : ∀ e, timed.pending e = if e = 1 then some 0 else none := by
    intro e
    unfold State.pending State.event
    rw [he]
    rcases e with _ | _ | _ | _ | _ | _ | _ | e <;> simp
  have ha : timed.alarms = [⟨0, 1, 1280, false⟩] := by decide
  refine ⟨⟨by decide, fun i => ?_, ⟨by decide, by decide, by decide, by decide, by decide⟩, ?_, ?_, ?_, ?_, by decide⟩,
    fun e h => by rw [hp, if_neg (by omega)]⟩
  · rw [hch]; exact ⟨by decide, by decide, by decide, by decide, by decide⟩
  · refine ⟨by rw [ha]; simp, by decide, by decide, ?_, fun e id h => ?_, by decide, by decide⟩
    · rw [ha]; simp [hp]
    · rw [hp] at h
      split at h
      · next h1 => exact ⟨⟨0, 1, 1280, false⟩, by rw [ha]; simp, by simpa using h, h1.symm⟩
      · simp at h
  · exact ⟨by decide, by decide, by decide, by decide⟩
  · intro t
    rcases (by revert t; decide : t = 0#1 ∨ t = 1#1) with rfl | rfl <;> exact ⟨by decide, by decide, by decide⟩
  · exact ⟨by decide, by decide, by decide, by decide, by decide, by decide⟩

/-- An alarm due at the end of the wait is served, and one microsecond earlier it is not. -/
theorem witness_WaitEndsItsLoopOrLeavesTheRestPresented :
    armed.pending 0 = none ∧ (after (.setDmactl 0x07) prepared).g.dmaControl.getLsbD 1 = true ∧
      timed.alarms = [⟨0, 1, 1280, false⟩] ∧ 1280 ≤ timed.now + (1280#48).toNat ∧
      ¬1280 ≤ timed.now + (1279#48).toNat ∧ timed.Inv ∧ ∀ e, 3 ≤ e → timed.pending e = none :=
  ⟨by decide, by decide, by decide, by decide, by decide, witness_WaitWithoutExternalEventsEndsItsLoop⟩

/-- The setup of section S5 meets the premises of a start. -/
theorem witness_EnableStartsAnIdleEngine :
    (0x05 : BitVec 8).getLsbD 0 = true ∧ prepared.dma.running = false ∧ prepared.g.dmaCfgTotal ≠ 0 ∧
      (if prepared.cfg.dmaIntervalOverride = 0 then prepared.g.dmaCfgInterval
        else prepared.cfg.dmaIntervalOverride) ≠ 0 ∧
      (keptAlarms 0 prepared).length < prepared.cfg.schedCapacity := by decide

/-- The full table with a transfer set up. -/
def crowdedSetup : State := crowded.onG (fun g => { g with dmaCfgTotal := 4, dmaCfgInterval := 100 })

/-- A running engine; a count of 0; a period of 0 with a count; a full table with count and period; a cancel. -/
theorem witness_OtherDmaControlWritesStartNothing :
    (0x05 : BitVec 8).getLsbD 0 = true ∧ moving.dma.running = true ∧ State.reset.dma.running = false ∧
      State.reset.g.dmaCfgTotal = 0 ∧
      (after (.dmaSetup false false 4) State.reset).g.dmaCfgTotal ≠ 0 ∧
      (after (.dmaSetup false false 4) State.reset).dma.running = false ∧
      (after (.dmaSetup false false 4) State.reset).cfg.dmaIntervalOverride = 0 ∧
      (after (.dmaSetup false false 4) State.reset).g.dmaCfgInterval = 0 ∧
      crowdedSetup.dma.running = false ∧ crowdedSetup.g.dmaCfgTotal ≠ 0 ∧
      (if crowdedSetup.cfg.dmaIntervalOverride = 0 then crowdedSetup.g.dmaCfgInterval
        else crowdedSetup.cfg.dmaIntervalOverride) ≠ 0 ∧
      crowdedSetup.cfg.schedCapacity ≤ (keptAlarms 0 crowdedSetup).length ∧
      (0x06 : BitVec 8).getLsbD 0 = false := by decide

/-- One and two bytes, from the host and to it. -/
theorem witness_ATransferCycleMovesExactlyOneUnit :
    prepared.cfg.WF ∧ prepared.g.dmaControl.getLsbD 1 = false ∧ prepared.dma.bytesPerUnit = .one ∧
      prepared.env.hostBytes = [0x11] ++ [0x22] ∧ ([0x11] : List Byte).length = 1 ∧
      prepared.env.hostBytes = [0x11, 0x22] ++ [] ∧
      { prepared with dma := { prepared.dma with bytesPerUnit := .two } }.dma.bytesPerUnit = .two ∧
      ([0x11, 0x22] : List Byte).length = 2 ∧ (after (.setDmactl 0x07) prepared).g.dmaControl.getLsbD 1 = true := by
  decide

/-- A stopped engine; more than one unit left; the last unit with and without auto-init, with `IRQ_EN`. -/
theorem witness_ADmaTickCountsDownToTerminalCount :
    State.reset.dma.running = false ∧ moving.dma.running = true ∧ moving.dma.remaining ≠ 1 ∧
      { moving with dma := { moving.dma with remaining := 1 } }.dma.running = true ∧
      moving.g.dmaControl.getLsbD 2 = true ∧ moving.dma.autoInit = false ∧
      { moving with dma := { moving.dma with remaining := 1, autoInit := true } }.dma.autoInit = true := by decide

/-- A full FIFO and one with room; a stopped one and a running one. -/
theorem witness_FifoPushAndPopFollowTheirRules :
    15 = State.reset.cfg.fifoCapacity - 1 ∧ three.fifo.count ≠ three.cfg.fifoCapacity - 1 ∧
      three.fifo.state = .stopped ∧ (after (.fifoPush 0x13) three).fifo.state = .running := by decide

theorem witness_TheFifoIsAQueue :
    three.cfg.WF ∧ three.fifo.count + 1 < three.cfg.fifoCapacity ∧ three.fifo.Ok three.cfg ∧
      (after (.fifoPush 0x13) three).fifo.state = .running ∧
      (after (.fifoPush 0x13) three).fifo.Ok (after (.fifoPush 0x13) three).cfg :=
  ⟨by decide, by decide, ⟨by decide, by decide, by decide, by decide, by decide, by decide⟩, by decide,
    ⟨by decide, by decide, by decide, by decide, by decide, by decide⟩⟩

theorem witness_TheInvariantsHoldAfterBoot : vectorConfig.WF := vectorConfig_wf

/-- A state of the invariants whose next step answers. -/
theorem witness_EveryStepKeepsTheInvariants :
    timed.Inv ∧ step timed = .next timed ∧ step (timed.withFetchWord 64 0x4C01000000000000) =
      .next (after (.tmrAck 1) (timed.begin [])) :=
  ⟨witness_WaitWithoutExternalEventsEndsItsLoop.1, rfl, rfl⟩

end Sys2Proof.Tests
end

/-! ### The family of `00_scope.md`: completion, the configuration, quiet voices, poke and peek, the agents' steps -/

namespace Sys2Proof.Machine

/-! #### What an audio tick and the timer commands leave as they were -/

/-- The active voices ticked write the channels and the register file only. -/
theorem foldl_tickVoice_rest (l : List ChanIdx) (m : Mixing) :
    ∃ chans g, (l.foldl tickVoice m).s = { m.s with chans := chans, g := g } := by
  induction l generalizing m with
  | nil => exact ⟨_, _, rfl⟩
  | cons i l ih =>
    obtain ⟨chans, g, h⟩ := ih (tickVoice m i)
    exact ⟨chans, g, h⟩

/-- An audio tick writes the channels and the register file, and emits its pair (R200). -/
theorem audioTick_rest (inL inR : BitVec 24) (s : State) :
    ∃ chans g, (audioTick inL inR s).2 =
      { s with
        chans := chans, g := g
        emitted := s.emitted ++ [.audioOut (audioTick inL inR s).1.1 (audioTick inL inR s).1.2] } := by
  obtain ⟨chans, g, h⟩ := foldl_tickVoice_rest (activeChannels s.g.activeVoiceCount) ⟨s, inL.toInt, inR.toInt⟩
  refine ⟨chans, irqUpdated g, ?_⟩
  unfold audioTick mixAll
  dsimp only
  rw [h]
  rfl

@[simp] theorem audioTick_cfg (inL inR : BitVec 24) (s : State) : (audioTick inL inR s).2.cfg = s.cfg := by
  obtain ⟨_, _, h⟩ := audioTick_rest inL inR s
  rw [h]

@[simp] theorem audioTick_result (inL inR : BitVec 24) (s : State) :
    (audioTick inL inR s).2.result = s.result := by
  obtain ⟨_, _, h⟩ := audioTick_rest inL inR s
  rw [h]

@[simp] theorem startTimer_cfg (t : BitVec 1) (s : State) : (startTimer t s).cfg = s.cfg := by
  unfold startTimer
  dsimp only
  split
  · rfl
  · split <;> simp

@[simp] theorem stopTimer_cfg (t : BitVec 1) (s : State) : (stopTimer t s).cfg = s.cfg := by
  simp [stopTimer]

/-! #### How a command completes -/

/-- R134: a stopped FIFO hands back 0. -/
theorem execFifoPop_of_stopped {s : State} (h : s.fifo.state = .stopped) : execFifoPop s = .next (s.ret 0) := by
  simp only [execFifoPop, h]

/-- R134: a running FIFO hands back its oldest byte, marked valid by bit 8. -/
theorem execFifoPop_of_running {s : State} (h : s.fifo.state = .running) :
    execFifoPop s = .next (State.ret
      (0x100#48 ||| (Memory.read s.cfg.fifoFill s.fifo.buf s.fifo.readIndex).setWidth 48)
      { s with fifo := Fifo.pop s.cfg s.fifo }) := by
  simp only [execFifoPop, h]

/-- A defined command of direction W completes, handing nothing back, under the same configuration. -/
theorem exec_write {i : Instr} {s : State} (hw : i.wf s.cfg = true) (hd : i.direction = .write) :
    ∃ u : State, exec i s = .next u.done ∧ u.cfg = s.cfg := by
  cases i with
  | selCh | setWctrl | setWfreq | setWstart | setWend | setWaddr => exact ⟨_, rfl, rfl⟩
  | setRctrl | setRrate | setRstart | setRend | setRvol | setPan => exact ⟨_, rfl, rfl⟩
  | setVoices | memAddr | memPoke | tmrAck | dmaSetup | dmaInterval | dmaAddr => exact ⟨_, rfl, rfl⟩
  | reset | tmrCfg | setDmactl => exact ⟨_, rfl, by split <;> simp⟩
  | fifoPush b =>
    by_cases h : s.fifo.count = s.cfg.fifoCapacity - 1
    · exact ⟨s.emit (.log .fifoFull), if_pos h, rfl⟩
    · exact ⟨{ s with fifo := Fifo.push s.cfg b s.fifo }, if_neg h, rfl⟩
  | evAdd => exact ⟨_, if_pos hw, by simp⟩
  | evRemove => exact ⟨_, if_pos hw, by simp⟩
  | wait => exact ⟨_, rfl, by simp⟩
  | getCh | getWctrl | getWfreq | getWstart | getWend | getWaddr => cases hd
  | getRctrl | getRrate | getRstart | getRend | getRvol | getPan => cases hd
  | getMode | getVoices | getRate | getIrqst | ackVirq | getMemaddr | memPeek | getTmr => cases hd
  | getDmaaddr | getDmactl | fifoPop | getFifo | getEv | tick => cases hd

/-- A defined command of direction R completes with a value, under the same configuration. -/
theorem exec_read {i : Instr} {s : State} (hw : i.wf s.cfg = true) (hd : i.direction = .read) :
    ∃ (u : State) (v : Imm), exec i s = .next (u.ret v) ∧ u.cfg = s.cfg := by
  cases i with
  | getCh | getWctrl | getWfreq | getWstart | getWend | getWaddr => exact ⟨_, _, rfl, rfl⟩
  | getRctrl | getRrate | getRstart | getRend | getRvol | getPan => exact ⟨_, _, rfl, rfl⟩
  | getMode | getVoices | getRate | getIrqst | ackVirq | getMemaddr | memPeek | getTmr => exact ⟨_, _, rfl, rfl⟩
  | getDmaaddr | getDmactl | getFifo => exact ⟨_, _, rfl, rfl⟩
  | fifoPop =>
    cases h : s.fifo.state with
    | stopped => exact ⟨s, 0, execFifoPop_of_stopped h, rfl⟩
    | running => exact ⟨_, _, execFifoPop_of_running h, rfl⟩
  | getEv => exact ⟨_, _, if_pos hw, rfl⟩
  | tick => exact ⟨_, _, rfl, by simp⟩
  | selCh | setWctrl | setWfreq | setWstart | setWend | setWaddr => cases hd
  | setRctrl | setRrate | setRstart | setRend | setRvol | setPan => cases hd
  | reset | setVoices | memAddr | memPoke | tmrCfg | tmrAck => cases hd
  | dmaSetup | dmaInterval | dmaAddr | setDmactl | fifoPush | evAdd | evRemove | wait => cases hd

/-- A command whose event id R85 refuses is an undefined command. -/
theorem exec_of_not_wf {i : Instr} {s : State} (hw : ¬ i.wf s.cfg = true) :
    exec i s = .next (undefinedCommand s) := by
  cases i with
  | evAdd => exact if_neg hw
  | evRemove => exact if_neg hw
  | getEv => exact if_neg hw
  | _ => exact absurd rfl hw

/-- Everything `exec` can do, by direction and definedness: in every case it completes under the same configuration. -/
theorem exec_cases (i : Instr) (s : State) :
    (i.wf s.cfg = true ∧ i.direction = .write ∧ ∃ u : State, exec i s = .next u.done ∧ u.cfg = s.cfg) ∨
    (i.wf s.cfg = true ∧ i.direction = .read ∧
      ∃ (u : State) (v : Imm), exec i s = .next (u.ret v) ∧ u.cfg = s.cfg) ∨
    (¬ i.wf s.cfg = true ∧ exec i s = .next (undefinedCommand s)) := by
  by_cases hw : i.wf s.cfg = true
  · cases hd : i.direction with
    | write => exact .inl ⟨hw, rfl, exec_write hw hd⟩
    | read => exact .inr (.inl ⟨hw, rfl, exec_read hw hd⟩)
  · exact .inr (.inr ⟨hw, exec_of_not_wf hw⟩)

/-- Settles O9, by the form of each command's answer. -/
theorem writesHandNothingBackAndReadsHandBackAValue : Obligations.WritesHandNothingBackAndReadsHandBackAValue := by
  intro i s hw
  obtain ⟨-, hd, u, h, -⟩ | ⟨-, hd, u, v, h, -⟩ | ⟨hn, -⟩ := exec_cases i s
  · exact ⟨_, h, fun _ => rfl, fun hr => by simp [hd] at hr⟩
  · exact ⟨_, h, fun hr => by simp [hd] at hr, fun _ => by simp⟩
  · exact absurd hw hn

/-! #### No step writes the configuration -/

/-- Every command completes under the same configuration. -/
theorem exec_next_cfg (i : Instr) (s : State) : ∃ t, exec i s = .next t ∧ t.cfg = s.cfg := by
  obtain ⟨-, -, u, h, hc⟩ | ⟨-, -, u, v, h, hc⟩ | ⟨-, h⟩ := exec_cases i s
  · exact ⟨_, h, hc⟩
  · exact ⟨_, h, hc⟩
  · exact ⟨_, h, undefinedCommand_cfg s⟩

/-- A word of a script stream completes under the same configuration. -/
theorem serveWord_next_cfg (w : CmdWord) (s : State) : ∃ t, serveWord w s = .next t ∧ t.cfg = s.cfg := by
  unfold serveWord
  split
  · exact exec_next_cfg _ s
  · exact ⟨_, rfl, undefinedCommand_cfg s⟩

/-- A word on the hardware command port completes under the same configuration. -/
theorem servePortWord_next_cfg (w : CmdWord) (s : State) : ∃ t, servePortWord w s = .next t ∧ t.cfg = s.cfg := by
  unfold servePortWord
  split
  · split
    · exact ⟨_, rfl, undefinedCommand_cfg s⟩
    · exact exec_next_cfg _ s
  · exact ⟨_, rfl, undefinedCommand_cfg s⟩

/-- Whatever the stimulus, serving it completes under the same configuration. -/
theorem serve_next_cfg (x : Stimulus) (s : State) : ∃ t, serve x s = .next t ∧ t.cfg = s.cfg := by
  cases x with
  | word w => exact serveWord_next_cfg w s
  | portWord w => exact servePortWord_next_cfg w s
  | audioTick inL inR => exact ⟨_, rfl, audioTick_cfg inL inR s⟩
  | timePasses dt => exact ⟨_, rfl, rfl⟩
  | alarmExpire id => exact ⟨_, rfl, alarmExpire_cfg id s⟩
  | alarmDispatch => exact ⟨_, rfl, alarmDispatch_cfg s⟩
  | clientCall call => exact ⟨_, rfl, clientCall_cfg call s⟩
  | waitUntil target => exact ⟨_, rfl, waitUntil_cfg _ s⟩

/-- A step with nothing presented changes nothing (log 1). -/
theorem step_of_nil {s : State} (h : s.inbox = []) : step s = .next s := by
  simp [step, serveNext, h]

/-- A step serves the first stimulus, with the outputs of the last step gone. -/
theorem step_of_cons {s : State} {x : Stimulus} {rest : List Stimulus} (h : s.inbox = x :: rest) :
    step s = serve x (s.begin rest) := by
  simp [step, serveNext, h]

/-- Every step completes under the same configuration. -/
theorem step_next_cfg (s : State) : ∃ t, step s = .next t ∧ t.cfg = s.cfg := by
  cases h : s.inbox with
  | nil => exact ⟨s, step_of_nil h, rfl⟩
  | cons x rest =>
    rw [step_of_cons h]
    exact serve_next_cfg x (s.begin rest)

/-- Settles O10: whatever is presented, the state a step answers has the same configuration. -/
theorem noStepWritesTheConfiguration : Obligations.NoStepWritesTheConfiguration := by
  intro s t h
  obtain ⟨u, hu, hc⟩ := step_next_cfg s
  obtain rfl : u = t := by simpa [hu] using h
  exact hc

/-! #### Attenuation factors and quiet voices (R196, R199) -/

/-- R196: the integer part of a level times a weight up to 15 fits the 18 bits of a factor. -/
theorem toNat_levelTimes (v : RampQ) {k : Nat} (hk : k ≤ 15) :
    (BitVec.ofNat 18 ((v >>> 10).toNat * k)).toNat = v.toNat / 1024 * k := by
  have hv : v.toNat / 1024 ≤ 2 ^ 14 - 1 := by omega
  have hm := Nat.mul_le_mul hv hk
  rw [BitVec.toNat_ushiftRight, Nat.shiftRight_eq_div_pow, BitVec.toNat_ofNat]
  exact Nat.mod_eq_of_lt (by norm_num at hm ⊢; omega)

theorem toNat_attenLeft_standard {c : Config} (h : c.attenCurve = .standard) (p : BitVec 4) (v : RampQ) :
    (attenLeft c p v).toNat = v.toNat / 1024 * (15 - p.toNat) := by
  simpa only [attenLeft, h] using toNat_levelTimes v (Nat.sub_le 15 p.toNat)

theorem toNat_attenRight_standard {c : Config} (h : c.attenCurve = .standard) (p : BitVec 4) (v : RampQ) :
    (attenRight c p v).toNat = v.toNat / 1024 * p.toNat := by
  simpa only [attenRight, h] using toNat_levelTimes v (Nat.le_of_lt_succ p.isLt)

/-- R8: pan 15 has no left factor, whatever the curve. -/
@[simp] theorem attenLeft_pan_fifteen (c : Config) (v : RampQ) : attenLeft c 15 v = 0 := by
  unfold attenLeft
  split <;> simp

/-- R8: pan 0 has no right factor, whatever the curve. -/
@[simp] theorem attenRight_pan_zero (c : Config) (v : RampQ) : attenRight c 0 v = 0 := by
  unfold attenRight
  split <;> simp

@[simp] theorem scaleSample_zero (x : Int) : scaleSample x 0 = 0 := by simp [scaleSample]

/-- R199 (f): the quotient rounds toward minus infinity, so that a negative sample keeps its sign. -/
theorem scaleSample_neg {x : Int} {a : BitVec 18} (hx : x < 0) (ha : a ≠ 0) : scaleSample x a < 0 := by
  have hpos : 0 < a.toNat := Nat.pos_of_ne_zero fun h => ha (BitVec.eq_of_toNat_eq h)
  exact Int.ediv_neg_of_neg_of_pos (Int.mul_neg_of_neg_of_pos hx (by exact_mod_cast hpos)) (by norm_num)

/-- R199 (d): under the default functions a level with integer part 0 has no factor on either side. -/
theorem atten_eq_zero_of_level {c : Config} (h : c.attenCurve = .standard) (p : BitVec 4) {v : RampQ}
    (hv : v.toNat < 0x400) : attenLeft c p v = 0 ∧ attenRight c p v = 0 := by
  have hz : v.toNat / 1024 = 0 := Nat.div_eq_of_lt hv
  exact ⟨BitVec.eq_of_toNat_eq (by simp [toNat_attenLeft_standard h, hz]),
    BitVec.eq_of_toNat_eq (by simp [toNat_attenRight_standard h, hz])⟩

/-- Settles O25: the channel's factors are those of its pan and level, so each clause is a fact about the factors. -/
theorem quietVoicesAddNothing : Obligations.QuietVoicesAddNothing := by
  refine ⟨fun c p v h => ⟨toNat_attenLeft_standard h p v, toNat_attenRight_standard h p v⟩, ?_⟩
  intro c n ch x ok
  refine ⟨fun hp => ?_, fun hp => ?_, fun hs hv => ?_, scaleSample_neg, scaleSample_neg⟩
  · rw [ok.attenR_eq, hp, attenRight_pan_zero, scaleSample_zero]
  · rw [ok.attenL_eq, hp, attenLeft_pan_fifteen, scaleSample_zero]
  · obtain ⟨hl, hr⟩ := atten_eq_zero_of_level hs ch.panPosition hv
    rw [ok.attenL_eq, ok.attenR_eq, hl, hr]
    exact ⟨scaleSample_zero x, scaleSample_zero x⟩

/-! #### Poke and peek -/

/-- A device-memory write is read back at the address it was made with. -/
@[simp] theorem State.memRead_memWrite_self (a : Addr) (v : Byte) (s : State) : (s.memWrite a v).memRead a = v := by
  simp [State.memRead, State.byteAt_memWrite]

theorem exec_memPoke (v : Byte) (s : State) : exec (.memPoke v) s = .next (s.memWrite s.g.memAddr v).done := rfl

theorem exec_memPeek (s : State) : exec .memPeek s = .next (s.ret ((s.memRead s.g.memAddr).setWidth 48)) := rfl

/-- Settles O30: a poke is one device-memory write at the address register, which the peek reads again. -/
theorem pokeWritesOneByteAndPeekReadsIt : Obligations.PokeWritesOneByteAndPeekReadsIt := by
  intro s v
  have hbytes := State.byteAt_memWrite s.g.memAddr v s
  have hsched : SameSched s (s.memWrite s.g.memAddr v).done := ⟨rfl, rfl, rfl, fun _ => rfl⟩
  refine ⟨_, exec_memPoke v s, ⟨rfl, rfl⟩, hbytes, ⟨rfl, rfl, rfl⟩, fun _ => rfl, rfl, ⟨rfl, rfl⟩, rfl, hsched,
    rfl, _, exec_memPeek _, ?_, rfl⟩
  simp only [State.done_g, State.memWrite_g, State.done_memRead, State.memRead_memWrite_self, State.ret_result]

/-! #### The agents' steps (R101 to R111, R200) -/

/-- Handing nothing back changes nothing where nothing was handed back. -/
theorem State.done_of_result_none {s : State} (h : s.result = none) : s.done = s := by
  unfold State.done
  rw [← h]

/-- `AlarmExpire` marks the due entry that has not expired; a second mark would change nothing. -/
theorem alarmExpire_eq (id : Nat) (s : State) :
    alarmExpire id s = { s with
      alarms := s.alarms.map (fun a =>
        if a.id = id ∧ a.expired = false ∧ a.due ≤ s.now then { a with expired := true } else a) } := by
  unfold alarmExpire
  congr 1
  apply List.map_congr_left
  rintro ⟨aid, ev, due, expired⟩ -
  cases expired <;> simp

/-- `SchedRemove` writes the table and its own event only; the event keeps its value. -/
theorem schedRemove_frame (e : Nat) (s : State) :
    schedRemove e s = { s with alarms := keptAlarms e s, events := (schedRemove e s).events } ∧
      (schedRemove e s).event e = { s.event e with pending := none } ∧ SameEventsBut e s (schedRemove e s) :=
  ⟨schedRemove_eq e s, by simp [schedRemove_event], fun k hk => by simp [schedRemove_event, hk]⟩

/-- `SchedAdd` with a free slot writes the table, the next id and its own event only. -/
theorem schedAdd_frame_of_room {e : Nat} {s : State} (d v : BitVec 32)
    (h : (keptAlarms e s).length < s.cfg.schedCapacity) :
    schedAdd e d v s =
        { s with
          alarms := (schedAdd e d v s).alarms, events := (schedAdd e d v s).events
          nextAlarmId := s.nextAlarmId + 1 } ∧
      (schedAdd e d v s).alarms = keptAlarms e s ++ [⟨s.nextAlarmId, e, s.now + d.toNat, false⟩] ∧
      (schedAdd e d v s).event e = ⟨some s.nextAlarmId, v⟩ ∧ SameEventsBut e s (schedAdd e d v s) := by
  obtain ⟨-, ha, hev, hid, hem⟩ | ⟨hfull, -⟩ := schedAdd_cases e d v s
  · refine ⟨?_, ha, by simp [hev], fun k hk => schedAdd_event_ne d v s hk⟩
    have heq := schedAdd_eq e d v s
    rwa [hid, hem] at heq
  · omega

/-- `SchedAdd` on a full table removes its event and logs the rejection. -/
theorem schedAdd_frame_of_full {e : Nat} {s : State} (d v : BitVec 32)
    (h : s.cfg.schedCapacity ≤ (keptAlarms e s).length) :
    schedAdd e d v s =
        { s with
          alarms := keptAlarms e s, events := (schedAdd e d v s).events
          emitted := s.emitted ++ [.log .schedulerTableFull] } ∧
      (schedAdd e d v s).event e = { s.event e with pending := none } ∧ SameEventsBut e s (schedAdd e d v s) := by
  obtain ⟨hroom, -⟩ | ⟨-, ha, hev, hid, hem⟩ := schedAdd_cases e d v s
  · omega
  · refine ⟨?_, by simp [hev], fun k hk => schedAdd_event_ne d v s hk⟩
    have heq := schedAdd_eq e d v s
    rwa [ha, hid, hem] at heq

/-- A client's call that arms: an external event, and no other (log 8). -/
theorem clientCall_add (e : Nat) (d v : BitVec 32) (s : State) :
    clientCall (.add e d v) s = if 3 ≤ e ∧ e < 3 + s.cfg.extEvents then schedAdd e d v s else s := by
  simp [clientCall]

/-- A client's call that removes: an external event, and no other (log 8). -/
theorem clientCall_remove (e : Nat) (s : State) :
    clientCall (.remove e) s = if 3 ≤ e ∧ e < 3 + s.cfg.extEvents then schedRemove e s else s := by
  simp [clientCall]

/-- A tick taken as a stimulus is the command `TICK` with its value dropped. -/
theorem serve_audioTick (inL inR : BitVec 24) {s : State} (h : s.result = none) :
    ∃ u, exec (.tick inL inR) s = .next u ∧ serve (.audioTick inL inR) s = .next u.done := by
  refine ⟨_, rfl, ?_⟩
  have hres : (audioTick inL inR s).2.result = none := by rw [audioTick_result, h]
  exact congrArg _ (State.done_of_result_none hres).symm

/-- The rest of a wait is the command `WAIT` for the time that is left. -/
theorem serve_waitUntil {target : Nat} {s : State} (h : s.result = none) (ht : target < s.now + 2 ^ 48) :
    serve (.waitUntil target) s = exec (.wait (BitVec.ofNat 48 (target - s.now))) s := by
  have hleft : s.now + (BitVec.ofNat 48 (target - s.now)).toNat = max s.now target := by
    rw [BitVec.toNat_ofNat, Nat.mod_eq_of_lt (by omega)]
    omega
  simp only [serve, exec, execWait, hleft]
  rw [State.done_of_result_none (by simp [h])]

/-- Settles O7: one clause per agent, each by the rule of the procedure its step runs. -/
theorem agentStepsDoWhatTheirRulesSay : Obligations.AgentStepsDoWhatTheirRulesSay := by
  intro s rest
  refine ⟨step_of_nil, fun dt h => step_of_cons h, fun id h => ?_, step_of_cons, fun inL inR h => ?_,
    fun e d v h => ?_, fun e h => ?_, fun target h ht => ?_⟩
  · rw [step_of_cons h]
    exact congrArg _ (alarmExpire_eq id (s.begin rest))
  · rw [step_of_cons h]
    exact serve_audioTick inL inR rfl
  · refine ⟨clientCall (.add e d v) (s.begin rest), step_of_cons h, fun hout => ?_, fun h3 he hroom => ?_,
      fun h3 he hfull => ?_⟩
    · rw [clientCall_add, if_neg (by simp only [State.begin_cfg]; omega)]
    · rw [clientCall_add, if_pos ⟨h3, he⟩]
      exact schedAdd_frame_of_room d v hroom
    · rw [clientCall_add, if_pos ⟨h3, he⟩]
      exact schedAdd_frame_of_full d v hfull
  · refine ⟨clientCall (.remove e) (s.begin rest), step_of_cons h, fun hout => ?_, fun h3 he => ?_⟩
    · rw [clientCall_remove, if_neg (by simp only [State.begin_cfg]; omega)]
    · rw [clientCall_remove, if_pos ⟨h3, he⟩]
      exact schedRemove_frame e (s.begin rest)
  · rw [step_of_cons h]
    exact serve_waitUntil rfl ht

end Sys2Proof.Machine

/-! ### The family of `10_state.md`: the invariants at boot and under every step -/

namespace Sys2Proof.Machine

open Host (Outcome)

/-! #### The invariant in three parts

An operation that ends in `UpdateIrq` breaks the interrupt part on its way and nothing else; a procedure of the
scheduler, a timer or the DMA engine touches the event part only. So each part is kept by a lemma of its own. -/

/-- The part of the invariant that neither the scheduler nor the interrupt line bears on: configuration, channels,
voice count, FIFO and device memory. -/
structure State.DataOk (s : State) : Prop where
  cfg_wf : s.cfg.WF
  chans_ok : ∀ i, (s.chan i).Ok s.cfg s.g.activeVoiceCount.toNat
  voices_ge : 14 ≤ s.g.activeVoiceCount.toNat
  voices_le : s.g.activeVoiceCount.toNat ≤ 32
  baseRate_eq : s.g.baseRate = rateOf s.cfg s.g.activeVoiceCount.toNat
  fifo_ok : s.fifo.Ok s.cfg
  mem_wf : Memory.WF s.cfg.memFill (2 ^ s.cfg.memAddrBits) s.mem

/-- The part about the scheduler's events: the table, the DMA engine and the timers. -/
structure State.EventsOk (s : State) : Prop where
  sched_ok : s.SchedOk
  dma_ok : s.DmaOk
  timer_ok : ∀ t, s.TimerOk t

/-- The part that `UpdateIrq` establishes: the line agrees with the status, the pointer with the causes. -/
structure Globals.IrqOk (g : Globals) : Prop where
  irqLine_eq : g.irqLine = (effectiveIrqStatus g != 0)
  blame_pending : voicePending g ≠ 0 → (voicePending g).getLsbD g.irqChan.toNat = true

theorem State.Inv.data {s : State} (h : s.Inv) : s.DataOk :=
  ⟨h.cfg_wf, h.chans_ok, h.g_ok.voices_ge, h.g_ok.voices_le, h.g_ok.baseRate_eq, h.fifo_ok, h.mem_wf⟩

theorem State.Inv.events {s : State} (h : s.Inv) : s.EventsOk := ⟨h.sched_ok, h.dma_ok, h.timer_ok⟩

theorem State.Inv.irq {s : State} (h : s.Inv) : s.g.IrqOk := ⟨h.g_ok.irqLine_eq, h.g_ok.blame_pending⟩

theorem State.Inv.of_parts {s : State} (hd : s.DataOk) (he : s.EventsOk) (hi : s.g.IrqOk) : s.Inv :=
  ⟨hd.cfg_wf, hd.chans_ok, ⟨hd.voices_ge, hd.voices_le, hd.baseRate_eq, hi.irqLine_eq, hi.blame_pending⟩,
    he.sched_ok, he.dma_ok, he.timer_ok, hd.fifo_ok, hd.mem_wf⟩

/-- R217: bringing pointer and line up to date establishes the interrupt part. -/
theorem irqUpdated_irqOk (g : Globals) : (irqUpdated g).IrqOk :=
  ⟨rfl, fun h => blamedChannel_pending (g := g) h⟩

@[simp] theorem irqUpdated_activeVoiceCount (g : Globals) :
    (irqUpdated g).activeVoiceCount = g.activeVoiceCount := rfl
@[simp] theorem irqUpdated_baseRate (g : Globals) : (irqUpdated g).baseRate = g.baseRate := rfl

/-- The data part rests on six fields, which the frame lemmas compare. -/
theorem State.DataOk.congr {s t : State} (h : s.DataOk) (hc : t.cfg = s.cfg := by simp)
    (hch : t.chans = s.chans := by simp) (hv : t.g.activeVoiceCount = s.g.activeVoiceCount := by simp)
    (hb : t.g.baseRate = s.g.baseRate := by simp) (hf : t.fifo = s.fifo := by simp)
    (hm : t.mem = s.mem := by simp) : t.DataOk := by
  have hi : ∀ i, t.chan i = s.chan i := fun i => by rw [State.chan, hch, State.chan]
  constructor
  · rw [hc]; exact h.cfg_wf
  · intro i; rw [hi, hc, hv]; exact h.chans_ok i
  · rw [hv]; exact h.voices_ge
  · rw [hv]; exact h.voices_le
  · rw [hb, hc, hv]; exact h.baseRate_eq
  · rw [hf, hc]; exact h.fifo_ok
  · rw [hc, hm]; exact h.mem_wf

/-- The DMA engine's part rests on the engine and on the pending alarm of `EV_DMA`. -/
theorem State.DmaOk.congr {s t : State} (h : s.DmaOk) (hd : t.dma = s.dma)
    (hp : t.pending evDma = s.pending evDma) : t.DmaOk := by
  constructor
  · rw [hd]; exact h.xfer_idle
  · rw [hd, hp]; exact h.running_iff
  · rw [hd]; exact h.interval_ne
  · rw [hd]; exact h.remaining_ne

/-- A timer's part rests on its flag and delay and on its own event. -/
theorem State.TimerOk.congr {s t : State} {u : BitVec 1} (h : s.TimerOk u) (ht : t.tmr u = s.tmr u)
    (he : t.event (evTimer u) = s.event (evTimer u)) : t.TimerOk u := by
  have hp : t.pending (evTimer u) = s.pending (evTimer u) := by rw [State.pending, he, State.pending]
  constructor
  · rw [ht, hp]; exact h.running_iff
  · rw [ht]; exact h.delay_ne
  · rw [hp, he]; exact h.value_eq

/-- The event part rests on eight fields, which the frame lemmas compare. -/
theorem State.EventsOk.congr {s t : State} (h : s.EventsOk) (hc : t.cfg = s.cfg := by simp)
    (hn : t.now = s.now := by simp) (ha : t.alarms = s.alarms := by simp)
    (hi : t.nextAlarmId = s.nextAlarmId := by simp) (he : t.events = s.events := by simp)
    (hd : t.dma = s.dma := by simp) (h0 : t.tmr0 = s.tmr0 := by simp) (h1 : t.tmr1 = s.tmr1 := by simp) :
    t.EventsOk := by
  have hev : ∀ k, t.event k = s.event k := fun k => by rw [State.event, he, State.event]
  have htm : ∀ u, t.tmr u = s.tmr u := fun u => by rw [State.tmr, h0, h1, State.tmr]
  refine ⟨h.sched_ok.congr hn ha hi he hc, h.dma_ok.congr hd ?_, fun u => (h.timer_ok u).congr (htm u) (hev _)⟩
  rw [State.pending, hev, State.pending]

/-- An operation that leaves the register file as it was owes the data and the event part only. -/
theorem State.Inv.congr {s t : State} (h : s.Inv) (hd : t.DataOk) (he : t.EventsOk)
    (hg : t.g = s.g := by simp) : t.Inv :=
  .of_parts hd he (hg ▸ h.irq)

theorem State.Inv.ret {s : State} (h : s.Inv) (v : Imm) : (s.ret v).Inv := h.congr h.data.congr h.events.congr
theorem State.Inv.done {s : State} (h : s.Inv) : s.done.Inv := h.congr h.data.congr h.events.congr
theorem State.Inv.emit {s : State} (h : s.Inv) (x : Emission) : (s.emit x).Inv := h.congr h.data.congr h.events.congr
theorem State.Inv.begin {s : State} (h : s.Inv) (l : List Stimulus) : (s.begin l).Inv :=
  h.congr h.data.congr h.events.congr
theorem State.Inv.undefined {s : State} (h : s.Inv) : (undefinedCommand s).Inv :=
  h.congr h.data.congr h.events.congr

/-- R217: a state whose data and events are in order meets the invariant once the line is brought up to date. -/
theorem State.Inv.of_updateIrq {s : State} (hd : s.DataOk) (he : s.EventsOk) : (updateIrq s).Inv :=
  .of_parts hd.congr he.congr (irqUpdated_irqOk s.g)

/-- The latches of the register file bear on no interrupt. -/
theorem Globals.IrqOk.withLatches {g : Globals} (h : g.IrqOk) (sel : BitVec 5) (ma da : Addr)
    (total : BitVec 32) (unit : UnitWidth) (auto : Bool) (us : BitVec 32) :
    Globals.IrqOk
      { g with
        selChannel := sel, memAddr := ma, dmaAddr := da, dmaCfgTotal := total, dmaCfgUnit := unit
        dmaCfgAuto := auto, dmaCfgInterval := us } :=
  ⟨h.irqLine_eq, h.blame_pending⟩

/-- A write to the latches of the register file keeps the invariant. -/
theorem State.Inv.withLatches {s : State} (h : s.Inv) (sel : BitVec 5) (ma da : Addr)
    (total : BitVec 32) (unit : UnitWidth) (auto : Bool) (us : BitVec 32) :
    State.Inv
      { s with
        g := { s.g with
          selChannel := sel, memAddr := ma, dmaAddr := da, dmaCfgTotal := total, dmaCfgUnit := unit
          dmaCfgAuto := auto, dmaCfgInterval := us } } :=
  .of_parts h.data.congr h.events.congr (h.irq.withLatches sel ma da total unit auto us)

/-! #### Channels -/

theorem maxRamp_bounds_of_wf {c : Config} (h : c.WF) : 1 ≤ c.maxRamp ∧ c.maxRamp ≤ 2 ^ 24 := by
  obtain ⟨-, hr, -⟩ := h
  exact hr

theorem fifoThreshold_bounds_of_wf {c : Config} (h : c.WF) :
    1 ≤ c.fifoThreshold ∧ c.fifoThreshold < c.fifoCapacity := by
  obtain ⟨-, -, -, -, -, -, -, -, ht⟩ := h
  exact ht

/-- R225: a timer's unit is positive and its longest delay fits 32 bits (log 18). -/
theorem timerUnit_bounds_of_wf {c : Config} (h : c.WF) (t : BitVec 1) :
    0 < timerUnit c t ∧ 256 * timerUnit c t < 2 ^ 32 := by
  obtain ⟨-, -, -, -, -, h0, h1, -⟩ := h
  unfold timerUnit
  split
  · exact h0
  · exact h1

/-- R177: a clamped level is below `MAX_RAMP`. -/
theorem clampRamp_lt {c : Config} (h : c.WF) (x : Int) : (clampRamp c x).toNat < c.maxRamp := by
  obtain ⟨h1, h2⟩ := maxRamp_bounds_of_wf h
  rw [clampRamp, BitVec.toNat_ofNat]
  omega

/-- R213: a clamped voice count is in range. -/
theorem clampVoices_bounds (n : Nat) : 14 ≤ clampVoices n ∧ clampVoices n ≤ 32 := by
  unfold clampVoices; omega

/-- R213: a clamped voice count fits its field. -/
theorem toNat_clampVoices (n : Nat) : (BitVec.ofNat 6 (clampVoices n)).toNat = clampVoices n := by
  have := clampVoices_bounds n
  rw [BitVec.toNat_ofNat]
  omega

namespace Channel.Ok

variable {c : Config} {n : Nat} {ch : Channel}

/-- The invariant leaves positions, boundaries, control bytes and the cache tag free. -/
theorem withFree (h : ch.Ok c n) (ws we wa : WaveQ) (wc : BitVec 8) (rs re : RampQ) (rc : BitVec 8) (cv : Bool)
    (ct : BitVec 20) :
    Channel.Ok c n
      { ch with
        waveStart := ws, waveEnd := we, waveAddr := wa, waveControl := wc, rampStart := rs, rampEnd := re
        rampControl := rc, cacheValid := cv, cacheTag := ct } :=
  ⟨h.rampVol_lt, h.attenL_eq, h.attenR_eq, h.waveIncrement_eq, h.rampIncrement_eq⟩

/-- R145: the increment written with its frequency. -/
theorem withFreq (h : ch.Ok c n) (f : BitVec 16) :
    Channel.Ok c n { ch with waveFreq := f, waveIncrement := waveStep c f n } :=
  ⟨h.rampVol_lt, h.attenL_eq, h.attenR_eq, rfl, h.rampIncrement_eq⟩

/-- R157: the increment written with its rate. -/
theorem withRate (h : ch.Ok c n) (r : BitVec 8) :
    Channel.Ok c n { ch with rampRate := r, rampIncrement := rampStep c r n } :=
  ⟨h.rampVol_lt, h.attenL_eq, h.attenR_eq, h.waveIncrement_eq, rfl⟩

/-- R195: level and pan written, and the factors recomputed, whatever they were. -/
theorem withLevel (h : ch.Ok c n) (p : BitVec 4) {v : RampQ} (hv : v.toNat < c.maxRamp) :
    (Channel.updateAtten c { ch with panPosition := p, rampVol := v }).Ok c n :=
  ⟨hv, rfl, rfl, h.waveIncrement_eq, h.rampIncrement_eq⟩

/-- R213: both increments computed again for another voice count. -/
theorem rescale (h : ch.Ok c n) (m : Nat) : (ch.rescale c m).Ok c m :=
  ⟨h.rampVol_lt, h.attenL_eq, h.attenR_eq, rfl, rfl⟩

theorem touchCache (h : ch.Ok c n) : ch.touchCache.Ok c n := h.withFree ..

theorem deviceReset (h : ch.Ok c n) (hc : c.WF) : (ch.deviceReset c).Ok c n :=
  (h.withFree ch.waveStart ch.waveEnd ch.waveAddr 0x01 ch.rampStart ch.rampEnd 0x01 false ch.cacheTag).withLevel
    c.panCentre (v := 0) (maxRamp_bounds_of_wf hc).1

/-- R176: whatever the boundary does, the wave generator writes the position and the control byte only. -/
theorem waveBoundary (h : ch.Ok c n) : ch.waveBoundary.Ok c n := by
  unfold Channel.waveBoundary
  split
  · exact h.withFree ..
  · split
    · split <;> exact h.withFree ..
    · exact h.withFree ..

theorem advanceWave (h : ch.Ok c n) : ch.advanceWave.Ok c n := by
  unfold Channel.advanceWave
  split
  · exact h
  · split
    · exact h.waveBoundary
    · exact h.withFree ..

/-- R177: the new level is clamped and the factors follow it. -/
theorem advanceRamp (h : ch.Ok c n) (hc : c.WF) : (ch.advanceRamp c).Ok c n := by
  unfold Channel.advanceRamp
  split
  · exact h
  · split
    · exact (h.withFree ch.waveStart ch.waveEnd ch.waveAddr ch.waveControl ch.rampStart ch.rampEnd
        ch.rampBoundaryControl ch.cacheValid ch.cacheTag).withLevel ch.panPosition (clampRamp_lt hc _)
    · exact h.withLevel ch.panPosition (clampRamp_lt hc _)

theorem ticked (h : ch.Ok c n) (hc : c.WF) : (ch.ticked c).Ok c n := h.touchCache.advanceWave.advanceRamp hc

end Channel.Ok

/-! #### Data: channel writes, the voice count, device memory, the audio tick -/

theorem State.DataOk.setChan {s : State} (h : s.DataOk) (i : ChanIdx) {ch : Channel}
    (hc : ch.Ok s.cfg s.g.activeVoiceCount.toNat) : (s.setChan i ch).DataOk := by
  refine ⟨h.cfg_wf, fun j => ?_, h.voices_ge, h.voices_le, h.baseRate_eq, h.fifo_ok, h.mem_wf⟩
  rw [State.chan_setChan]
  split
  · exact hc
  · exact h.chans_ok j

/-- A command on the selected channel keeps the invariant where it keeps the channel's (R140). -/
theorem State.Inv.onSel {s : State} (h : s.Inv) {f : Channel → Channel}
    (hf : (f s.selChan).Ok s.cfg s.g.activeVoiceCount.toNat) : (s.onSel f).Inv :=
  h.congr (h.data.setChan s.sel hf) h.events.congr

/-- R213: the count clamped, the base rate looked up and every channel's increments computed again. -/
theorem State.DataOk.setVoiceCount {s : State} (h : s.DataOk) (n : Nat) : (setVoiceCount n s).DataOk := by
  have hv : (Machine.setVoiceCount n s).g.activeVoiceCount.toNat = clampVoices n := toNat_clampVoices n
  have hch : ∀ i, (Machine.setVoiceCount n s).chan i = (s.chan i).rescale s.cfg (clampVoices n) :=
    get_mapChannels _ _
  refine ⟨h.cfg_wf, fun i => ?_, ?_, ?_, ?_, h.fifo_ok, h.mem_wf⟩
  · rw [hv, hch]; exact (h.chans_ok i).rescale _
  · rw [hv]; exact (clampVoices_bounds n).1
  · rw [hv]; exact (clampVoices_bounds n).2
  · rw [hv]; rfl

/-- R211: every channel reset. -/
theorem State.DataOk.resetChans {s : State} (h : s.DataOk) :
    State.DataOk { s with chans := mapChannels (Channel.deviceReset s.cfg) s.chans } := by
  refine ⟨h.cfg_wf, fun i => ?_, h.voices_ge, h.voices_le, h.baseRate_eq, h.fifo_ok, h.mem_wf⟩
  rw [State.chan, get_mapChannels]
  exact (h.chans_ok i).deviceReset h.cfg_wf

theorem State.DataOk.memWrite {s : State} (h : s.DataOk) (a : Addr) (v : Byte) : (s.memWrite a v).DataOk :=
  ⟨h.cfg_wf, h.chans_ok, h.voices_ge, h.voices_le, h.baseRate_eq, h.fifo_ok, State.memWrite_wf a v h.mem_wf⟩

theorem State.DataOk.emit {s : State} (h : s.DataOk) (x : Emission) : (s.emit x).DataOk := h.congr

/-- One voice of an audio tick. -/
theorem State.DataOk.tickVoice {m : Mixing} (h : m.s.DataOk) (i : ChanIdx) : (tickVoice m i).s.DataOk := by
  refine ⟨h.cfg_wf, fun j => ?_, h.voices_ge, h.voices_le, h.baseRate_eq, h.fifo_ok, h.mem_wf⟩
  rw [tickVoice_chan]
  split
  · exact (h.chans_ok i).ticked h.cfg_wf
  · exact h.chans_ok j

theorem State.DataOk.tickVoices (l : List ChanIdx) {m : Mixing} (h : m.s.DataOk) :
    (l.foldl Machine.tickVoice m).s.DataOk := by
  induction l generalizing m with
  | nil => exact h
  | cons i l ih => exact ih (h.tickVoice i)

/-- R200: all active voices ticked, then pointer and line brought up to date. -/
theorem State.Inv.audioTick {s : State} (h : s.Inv) (inL inR : BitVec 24) : (audioTick inL inR s).2.Inv := by
  obtain ⟨chans, g, hm⟩ := foldl_tickVoice_rest (activeChannels s.g.activeVoiceCount) ⟨s, inL.toInt, inR.toInt⟩
  have hdata : (mixAll inL inR s).s.DataOk := h.data.tickVoices _
  have hevents : (mixAll inL inR s).s.EventsOk := by
    unfold mixAll; rw [hm]; exact h.events.congr
  exact (State.Inv.of_updateIrq hdata hevents).emit _

/-! #### The audio FIFO -/

/-- The fill count of R132 without its modulus. -/
theorem fifoDistance_eq {cap w r : Nat} (hw : w < cap) (hr : r < cap) :
    (w + cap - r) % cap = if r ≤ w then w - r else w + cap - r := by
  split
  · rw [Nat.mod_eq_sub_mod (by omega), Nat.mod_eq_of_lt (by omega)]; omega
  · exact Nat.mod_eq_of_lt (by omega)

/-- An index advanced by one, without its modulus. -/
theorem fifoAdvance_eq {cap k : Nat} (hk : k < cap) : (k + 1) % cap = if k + 1 = cap then 0 else k + 1 := by
  split
  · next h => rw [h, Nat.mod_self]
  · exact Nat.mod_eq_of_lt (by omega)

/-- R133: one more byte where there is room. -/
theorem Fifo.Ok.push {c : Config} {f : Fifo} (h : f.Ok c) (hroom : f.count ≠ c.fifoCapacity - 1) (b : Byte) :
    (f.push c b).Ok c := by
  obtain ⟨hw, hr, hcount, -, -, hbuf⟩ := h
  have hw' : (f.writeIndex + 1) % c.fifoCapacity < c.fifoCapacity := Nat.mod_lt _ (by omega)
  refine ⟨hw', hr, ?_, fun _ => Nat.le_add_left 1 _, fun hs => ?_, Memory.write_wf b hbuf hw⟩
  · simp only [Fifo.push]
    rw [fifoDistance_eq hw' hr, fifoAdvance_eq hw]
    rw [fifoDistance_eq hw hr] at hcount
    split at hcount <;> split <;> split <;> omega
  · simp only [Fifo.push] at hs ⊢
    split at hs
    · cases hs
    · next hn => exact Nat.lt_of_not_le fun ht => hn ⟨hs, ht⟩

/-- R134: one byte less. -/
theorem Fifo.Ok.pop {c : Config} {f : Fifo} (hc : c.WF) (h : f.Ok c) (hrun : f.state = .running) :
    (f.pop c).Ok c := by
  obtain ⟨hw, hr, hcount, hpos, -, hbuf⟩ := h
  have hr' : (f.readIndex + 1) % c.fifoCapacity < c.fifoCapacity := Nat.mod_lt _ (by omega)
  have hthreshold := (fifoThreshold_bounds_of_wf hc).1
  have := hpos hrun
  refine ⟨hw, hr', ?_, fun hs => ?_, fun hs => ?_, hbuf⟩
  · simp only [Fifo.pop]
    rw [fifoDistance_eq hw hr', fifoAdvance_eq hr]
    rw [fifoDistance_eq hw hr] at hcount
    split at hcount <;> split <;> split <;> omega
  · simp only [Fifo.pop] at hs ⊢
    split at hs
    · cases hs
    · omega
  · simp only [Fifo.pop] at hs ⊢
    split at hs
    · omega
    · rw [hrun] at hs; cases hs

theorem State.Inv.withFifo {s : State} (h : s.Inv) {f : Fifo} (hf : f.Ok s.cfg) : State.Inv { s with fifo := f } :=
  h.congr ⟨h.cfg_wf, h.chans_ok, h.data.voices_ge, h.data.voices_le, h.data.baseRate_eq, hf, h.mem_wf⟩ h.events.congr

/-! #### Events: the scheduler's procedures on external events -/

theorem evTimer_lt (t : BitVec 1) : evTimer t < 3 := by
  have := t.isLt
  simp only [evTimer]; omega

theorem evTimer_ne_evDma (t : BitVec 1) : evTimer t ≠ evDma := by simp [evTimer, evDma]

theorem evTimer_ne {t u : BitVec 1} (h : u ≠ t) : evTimer u ≠ evTimer t := fun he =>
  h (BitVec.eq_of_toNat_eq (Nat.add_left_cancel he))

/-- The engine's and the timers' parts rest on the block's own three events. -/
theorem State.EventsOk.of_sched {s t : State} (h : s.EventsOk) (hs : t.SchedOk) (hd : t.dma = s.dma)
    (ht : ∀ u, t.tmr u = s.tmr u) (hev : ∀ k < 3, t.event k = s.event k) : t.EventsOk := by
  refine ⟨hs, h.dma_ok.congr hd ?_, fun u => (h.timer_ok u).congr (ht u) (hev _ (evTimer_lt u))⟩
  rw [State.pending, hev _ (by decide), State.pending]

theorem State.EventsOk.remove {s : State} (h : s.EventsOk) {e : Nat} (he : 3 ≤ e) : (schedRemove e s).EventsOk :=
  h.of_sched (h.sched_ok.remove e) (by simp) (by simp) fun k hk => by rw [schedRemove_event, if_neg (by omega)]

theorem State.EventsOk.add {s : State} (h : s.EventsOk) {e : Nat} (he : 3 ≤ e) (hx : e < 3 + s.cfg.extEvents)
    (d v : BitVec 32) : (schedAdd e d v s).EventsOk :=
  h.of_sched (h.sched_ok.add d v hx) (by simp) (by simp) fun k hk => schedAdd_event_ne d v s (by omega)

theorem State.EventsOk.client {s : State} (h : s.EventsOk) (c : ClientCall) : (clientCall c s).EventsOk := by
  obtain ⟨e, d, v, -, he, hc⟩ | ⟨e, -, he, hc⟩ | hc := clientCall_cases c s
  · obtain ⟨h3, hx⟩ : 3 ≤ e ∧ e < 3 + s.cfg.extEvents := by simpa using he
    rw [hc]; exact h.add h3 hx d v
  · obtain ⟨h3, -⟩ : 3 ≤ e ∧ e < 3 + s.cfg.extEvents := by simpa using he
    rw [hc]; exact h.remove h3
  · rw [hc]; exact h

theorem State.EventsOk.clients {s : State} (h : s.EventsOk) (l : List ClientCall) :
    (l.foldl (fun s c => clientCall c s) s).EventsOk := by
  induction l generalizing s with
  | nil => exact h
  | cons c l ih => exact ih (h.client c)

theorem State.EventsOk.expire {s : State} (h : s.EventsOk) (id : Nat) : (alarmExpire id s).EventsOk :=
  h.of_sched (h.sched_ok.expire id) rfl (fun _ => rfl) fun _ _ => rfl

/-- The clock moved on, or moved anywhere while no entry has expired. -/
theorem State.SchedOk.atTime {s : State} (h : s.SchedOk) {n : Nat}
    (hn : s.now ≤ n ∨ ∀ a ∈ s.alarms, a.expired = false) : State.SchedOk { s with now := n } := by
  obtain hn | hn := hn
  · exact h.later hn
  · exact ⟨h.ids_rising, h.ids_fresh, h.room, h.unexpired_pending, h.pending_entry,
      fun a ha hx => absurd hx (by simp [hn a ha]), h.events_length⟩

theorem State.Inv.client {s : State} (h : s.Inv) (c : ClientCall) : (clientCall c s).Inv :=
  h.congr h.data.congr (h.events.client c)

theorem State.Inv.expire {s : State} (h : s.Inv) (id : Nat) : (alarmExpire id s).Inv :=
  h.congr h.data.congr (h.events.expire id)

theorem State.Inv.atTime {s : State} (h : s.Inv) {n : Nat}
    (hn : s.now ≤ n ∨ ∀ a ∈ s.alarms, a.expired = false) : State.Inv { s with now := n } :=
  h.congr h.data.congr (h.events.of_sched (h.sched_ok.atTime hn) rfl (fun _ => rfl) fun _ _ => rfl)

/-! #### Events: the DMA engine started and cancelled -/

theorem State.DmaOk.of_idle {s : State} (hx : s.dma.xfer = .idle) (hr : s.dma.running = false)
    (hp : s.pending evDma = none) : s.DmaOk :=
  ⟨hx, by simp [hr, hp], by simp [hr], by simp [hr]⟩

theorem State.DmaOk.of_running {s : State} (hx : s.dma.xfer = .idle) (hr : s.dma.running = true)
    (hp : s.pending evDma ≠ none) (hi : s.dma.intervalUs ≠ 0) (hn : s.dma.remaining ≠ 0 ∧ s.dma.total ≠ 0) :
    s.DmaOk :=
  ⟨hx, iff_of_true hr hp, fun _ => hi, fun _ => hn⟩

/-- R121: whatever is asked, a start leaves the engine running exactly while `EV_DMA` is armed. -/
theorem State.EventsOk.dmaStart {s : State} (h : s.EventsOk) (n : BitVec 32) (w : UnitWidth) (us : BitVec 32)
    (auto : Bool) : (dmaStart n w us auto s).EventsOk := by
  unfold Machine.dmaStart
  dsimp only
  generalize (if s.cfg.dmaIntervalOverride ≠ 0 then s.cfg.dmaIntervalOverride else us) = period
  split
  · exact h.congr
  split
  · exact h
  next hset =>
  obtain ⟨hn, hperiod⟩ := not_or.mp hset
  generalize hl : ({ s with dma := _ } : State) = loaded
  have hloaded : loaded.SchedOk := by subst hl; exact h.sched_ok.congr rfl rfl rfl rfl rfl
  have hsched := hloaded.add (e := evDma) period 0 (Nat.lt_add_right _ (by decide))
  have hdma : (schedAdd evDma period 0 loaded).dma = loaded.dma := schedAdd_dma ..
  have htimer : ∀ t, (schedAdd evDma period 0 loaded).TimerOk t := fun t => by
    refine (h.timer_ok t).congr (by subst hl; simp [State.tmr]) ?_
    rw [schedAdd_event_ne _ _ _ (evTimer_ne_evDma t)]
    subst hl; rfl
  split
  · next hp =>
    refine ⟨hsched.congr rfl rfl rfl rfl rfl, .of_idle ?_ rfl hp, fun t => (htimer t).congr rfl rfl⟩
    simp only [hdma]; subst hl; exact h.dma_ok.xfer_idle
  · next hp =>
    refine ⟨hsched, .of_running ?_ ?_ hp ?_ ?_, htimer⟩ <;> rw [hdma] <;> subst hl
    · exact h.dma_ok.xfer_idle
    · rfl
    · exact hperiod
    · exact ⟨hn, hn⟩

/-- R123: a cancelled engine is idle and its event inactive. -/
theorem State.EventsOk.dmaCancel {s : State} (h : s.EventsOk) : (dmaCancel s).EventsOk := by
  have hp : (schedRemove evDma s).pending evDma = none := by rw [schedRemove_pending, if_pos rfl]
  refine ⟨(h.sched_ok.remove evDma).congr rfl rfl rfl rfl rfl, .of_idle rfl rfl hp,
    fun t => (h.timer_ok t).congr (by simp) ?_⟩
  have := schedRemove_event evDma (evTimer t) s
  rwa [if_neg (evTimer_ne_evDma t)] at this

/-! #### Events: the timers -/

/-- An event that arming left active carries the value it was armed with. -/
theorem schedAdd_value_of_pending {e : Nat} {d v : BitVec 32} {s : State} (h : (schedAdd e d v s).pending e ≠ none) :
    ((schedAdd e d v s).event e).value = v := by
  obtain ⟨-, -, he, -⟩ | ⟨hfull, -⟩ := schedAdd_cases e d v s
  · rw [he, if_pos rfl]
  · rw [schedAdd_pending_self, if_neg (Nat.not_lt.mpr hfull)] at h
    exact absurd rfl h

theorem State.TimerOk.of_stopped {s : State} {t : BitVec 1} (hr : (s.tmr t).running = false)
    (hp : s.pending (evTimer t) = none) : s.TimerOk t :=
  ⟨by simp [hr, hp], by simp [hr], by simp [hp]⟩

theorem State.TimerOk.of_running {s : State} {t : BitVec 1} (hr : (s.tmr t).running = true)
    (hp : s.pending (evTimer t) ≠ none) (hd : (s.tmr t).delay ≠ 0)
    (hv : (s.event (evTimer t)).value = t.setWidth 32) : s.TimerOk t :=
  ⟨iff_of_true hr hp, fun _ => hd, fun _ => hv⟩

/-- R225: a timer's delay is never zero. -/
theorem timerDelay_ne_zero {c : Config} (h : c.WF) (t : BitVec 1) (reload : BitVec 8) : timerDelay c t reload ≠ 0 := by
  obtain ⟨hpos, hlt⟩ := timerUnit_bounds_of_wf h t
  have hr := reload.isLt
  have hle : (256 - reload.toNat) * timerUnit c t ≤ 256 * timerUnit c t := Nat.mul_le_mul_right _ (by omega)
  have hge : 0 < (256 - reload.toNat) * timerUnit c t := Nat.mul_pos (by omega) hpos
  intro hz
  have := congrArg BitVec.toNat hz
  rw [timerDelay, BitVec.toNat_ofNat, Nat.mod_eq_of_lt (by omega)] at this
  exact hge.ne' this

/-- The engine's part and the other timer's, where only timer `t` and its event were written. -/
theorem State.EventsOk.of_timer {s u : State} {t : BitVec 1} (h : s.EventsOk) (hs : u.SchedOk) (ht : u.TimerOk t)
    (hd : u.dma = s.dma) (htmr : ∀ k, k ≠ t → u.tmr k = s.tmr k) (hev : ∀ e, e ≠ evTimer t → u.event e = s.event e) :
    u.EventsOk := by
  refine ⟨hs, h.dma_ok.congr hd ?_, fun k => ?_⟩
  · rw [State.pending, hev _ (evTimer_ne_evDma t).symm, State.pending]
  · by_cases hk : k = t
    · exact hk ▸ ht
    · exact (h.timer_ok k).congr (htmr k hk) (hev _ (evTimer_ne hk))

theorem State.SchedOk.setTmr {s : State} (h : s.SchedOk) (t : BitVec 1) (x : Timer) : (s.setTmr t x).SchedOk :=
  h.congr (by simp) (by simp) (by simp) (by simp) (by simp)

/-- A timer's registers may change where its flag stays and its delay, while it runs, is not zero. -/
theorem State.EventsOk.setTmr {s : State} (h : s.EventsOk) {t : BitVec 1} {x : Timer}
    (hrun : x.running = (s.tmr t).running) (hdelay : x.running = true → x.delay ≠ 0) : (s.setTmr t x).EventsOk := by
  have ht := h.timer_ok t
  refine h.of_timer (h.sched_ok.setTmr t x) ⟨?_, ?_, ?_⟩ (by simp) (fun k hk => State.tmr_setTmr_ne x s hk) (by simp)
  · rw [State.tmr_setTmr_self, State.setTmr_pending, hrun]; exact ht.running_iff
  · rwa [State.tmr_setTmr_self]
  · rw [State.setTmr_pending, State.setTmr_event]; exact ht.value_eq

/-- R225: a timer with a delay, started, runs exactly while its event is armed. -/
theorem State.EventsOk.startTimer {s : State} (h : s.EventsOk) {t : BitVec 1} (hdelay : (s.tmr t).delay ≠ 0) :
    (startTimer t s).EventsOk := by
  unfold Machine.startTimer
  dsimp only
  split
  · exact h
  generalize hl : s.setTmr t _ = marked
  have hmarked : marked.tmr t = { s.tmr t with running := true } := by subst hl; exact State.tmr_setTmr_self ..
  generalize ha : schedAdd _ _ _ marked = armed
  have hsched : armed.SchedOk := by
    subst ha hl
    exact (h.sched_ok.setTmr t _).add _ _ (Nat.lt_add_right _ (evTimer_lt t))
  have hself : armed.tmr t = marked.tmr t := by subst ha; exact schedAdd_tmr ..
  have hother : ∀ k, k ≠ t → armed.tmr k = s.tmr k := fun k hk => by
    subst ha hl; rw [schedAdd_tmr, State.tmr_setTmr_ne _ _ hk]
  have hdma : armed.dma = s.dma := by subst ha hl; simp
  have hev : ∀ e, e ≠ evTimer t → armed.event e = s.event e := fun e he => by
    subst ha hl; rw [schedAdd_event_ne _ _ _ he, State.setTmr_event]
  split
  · next hp =>
    refine h.of_timer (hsched.setTmr t _) (.of_stopped ?_ ?_) (by simpa using hdma) (fun k hk => ?_)
      fun e he => by simpa using hev e he
    · rw [State.tmr_setTmr_self]
    · simpa using hp
    · rw [State.tmr_setTmr_ne _ _ hk, hother k hk]
  · next hp =>
    refine h.of_timer hsched (.of_running ?_ hp ?_ ?_) hdma hother hev
    · rw [hself, hmarked]
    · rw [hself, hmarked]; exact hdelay
    · subst ha; exact schedAdd_value_of_pending hp

/-- R225: a stopped timer's event is inactive. -/
theorem State.EventsOk.stopTimer {s : State} (h : s.EventsOk) (t : BitVec 1) : (stopTimer t s).EventsOk := by
  unfold Machine.stopTimer
  refine h.of_timer (t := t) ((h.sched_ok.setTmr t _).remove _) (.of_stopped ?_ ?_) (by simp) (fun k hk => ?_)
    fun e he => ?_
  · rw [schedRemove_tmr, State.tmr_setTmr_self]
  · rw [schedRemove_pending, if_pos rfl]
  · rw [schedRemove_tmr, State.tmr_setTmr_ne _ _ hk]
  · rw [schedRemove_event, if_neg he, State.setTmr_event]

/-! #### The return from a handler -/

/-- Everything a return does to an event: the entry's own event, if the entry is its pending alarm and the value is 0,
becomes inactive. -/
theorem handlerReturn_event (a : Alarm) (r : BitVec 32) (s : State) (k : Nat) :
    (handlerReturn a r s).event k =
      if k = a.ev ∧ s.pending a.ev = some a.id ∧ r = 0 then { s.event k with pending := none } else s.event k := by
  unfold handlerReturn
  split
  · next hp => rw [if_neg fun ⟨_, hp', _⟩ => hp hp', State.dropAlarm_event]
  next hp =>
  have hp : s.pending a.ev = some a.id := not_not.mp hp
  split
  · next hr =>
    rw [State.dropAlarm_event, State.event_setPending]
    by_cases hk : k = a.ev
    · subst hk; simp [hp, hr]
    · simp [hk]
  · next hr => rw [if_neg fun ⟨_, _, hr'⟩ => hr hr', State.rearmAlarm_event]

/-- A return keeps the event part, unless 0 ends an event of the block itself. -/
theorem State.EventsOk.handlerReturn {s : State} (h : s.EventsOk) {a : Alarm} (ha : a ∈ s.alarms)
    (hx : a.expired = true) {r : BitVec 32} (hr : s.pending a.ev = some a.id → r = 0 → 3 ≤ a.ev) :
    (handlerReturn a r s).EventsOk := by
  refine h.of_sched (h.sched_ok.handlerReturn ha hx r) (by simp) (by simp) fun k hk => ?_
  rw [handlerReturn_event, if_neg]
  rintro ⟨rfl, hp, h0⟩
  have := hr hp h0
  omega

theorem State.Inv.handlerReturn {s : State} (h : s.Inv) {a : Alarm} (ha : a ∈ s.alarms) (hx : a.expired = true)
    {r : BitVec 32} (hr : s.pending a.ev = some a.id → r = 0 → 3 ≤ a.ev) : (handlerReturn a r s).Inv :=
  h.congr h.data.congr (h.events.handlerReturn ha hx hr)

/-! #### The DMA cycle and its handler -/

theorem State.DataOk.transferIn {s : State} (h : s.DataOk) : (transferIn s).DataOk := by
  unfold Machine.transferIn
  dsimp only
  split
  · have hd : (drawHostByte s).2.DataOk := h.congr
    exact (hd.memWrite _ _).emit _
  · have hd : (drawHostByte s).2.DataOk := h.congr
    have hd' : (drawHostByte ((drawHostByte s).2.memWrite s.g.dmaAddr (drawHostByte s).1)).2.DataOk :=
      (hd.memWrite s.g.dmaAddr (drawHostByte s).1).congr
    exact (hd'.memWrite _ _).emit _

theorem State.DataOk.transferCycle {s : State} (h : s.DataOk) : (transferCycle s).DataOk := by
  have hstarted : State.DataOk { s with dma := { s.dma with xfer := .inflight } } := h.congr
  unfold Machine.transferCycle
  dsimp only
  split
  · exact hstarted.congr
  · exact hstarted.transferIn.congr

/-- R125: a cycle ends with the engine as it was, its transport idle. -/
theorem transferCycle_dma (s : State) : (transferCycle s).dma = { s.dma with xfer := .idle } := by
  unfold transferCycle
  dsimp only
  split <;> simp

/-- R125: a cycle writes the address register only. -/
theorem transferCycle_g (s : State) :
    (transferCycle s).g =
      { s.g with dmaAddr := s.g.dmaAddr + BitVec.ofNat 24 (unitBytes s.dma.bytesPerUnit) } := by
  unfold transferCycle
  dsimp only
  split <;> simp

/-- R122, R124: everything a tick of a running engine can do: count down, reload at terminal count, or stop there. -/
theorem dmaTick_cases {s : State} (hrun : s.dma.running = true) :
    (s.dma.remaining - 1 ≠ 0 ∧
      dmaTick s =
        ({ transferCycle s with dma := { (transferCycle s).dma with remaining := s.dma.remaining - 1 } },
          s.dma.intervalUs)) ∨
    (s.dma.remaining - 1 = 0 ∧ s.dma.autoInit = true ∧
      dmaTick s =
        (updateIrq { transferCycle s with
          g := { (transferCycle s).g with dmaControl := dmaAtTerminalCount (transferCycle s).g.dmaControl }
          dma := { (transferCycle s).dma with remaining := s.dma.total } }, s.dma.intervalUs)) ∨
    (s.dma.remaining - 1 = 0 ∧ s.dma.autoInit = false ∧
      dmaTick s =
        (updateIrq { transferCycle s with
          g := { (transferCycle s).g with dmaControl := dmaAtTerminalCount (transferCycle s).g.dmaControl }
          dma := { (transferCycle s).dma with remaining := 0, running := false } }, 0)) := by
  have hd := transferCycle_dma s
  have hon : ¬ (!s.dma.running) = true := by simp [hrun]
  by_cases hleft : s.dma.remaining - 1 = 0
  · have hmoved : ¬ (transferCycle s).dma.remaining - 1 ≠ 0 := by rw [hd]; exact not_not.mpr hleft
    cases hauto : s.dma.autoInit with
    | true =>
      refine .inr (.inl ⟨hleft, rfl, ?_⟩)
      rw [dmaTick, if_neg hon]
      dsimp only
      rw [if_neg hmoved, if_pos (by rw [hd]; exact hauto), hd]
    | false =>
      refine .inr (.inr ⟨hleft, rfl, ?_⟩)
      rw [dmaTick, if_neg hon]
      dsimp only
      rw [if_neg hmoved, if_neg (by rw [hd]; simp [hauto])]
  · refine .inl ⟨hleft, ?_⟩
    rw [dmaTick, if_neg hon]
    dsimp only
    rw [if_pos (by rw [hd]; exact hleft), hd]

/-- A tick of a running engine keeps data, pointer and line. -/
theorem dmaTick_data_irq {s : State} (h : s.Inv) (hrun : s.dma.running = true) :
    (dmaTick s).1.DataOk ∧ (dmaTick s).1.g.IrqOk := by
  have hmoved := h.data.transferCycle
  obtain ⟨-, ht⟩ | ⟨-, -, ht⟩ | ⟨-, -, ht⟩ := dmaTick_cases hrun <;> rw [ht]
  · refine ⟨hmoved.congr, ?_⟩
    dsimp only
    rw [transferCycle_g]
    exact h.irq.withLatches ..
  · exact ⟨hmoved.congr, irqUpdated_irqOk _⟩
  · exact ⟨hmoved.congr, irqUpdated_irqOk _⟩

/-- A tick of a running engine leaves it running, with its period returned, or stopped, with 0 returned. -/
theorem dmaTick_dma {s : State} (h : s.DmaOk) (hrun : s.dma.running = true) :
    ((dmaTick s).1.DmaOk ∧ (dmaTick s).2 ≠ 0) ∨
    ((dmaTick s).1.dma.xfer = .idle ∧ (dmaTick s).1.dma.running = false ∧ (dmaTick s).2 = 0) := by
  have hp : (dmaTick s).1.pending evDma ≠ none := by simpa using h.running_iff.mp hrun
  have hd := transferCycle_dma s
  obtain ⟨-, htotal⟩ := h.remaining_ne hrun
  obtain ⟨hleft, ht⟩ | ⟨-, -, ht⟩ | ⟨-, -, ht⟩ := dmaTick_cases hrun <;> rw [ht] at hp ⊢
  · refine .inl ⟨.of_running ?_ ?_ hp ?_ ⟨hleft, ?_⟩, h.interval_ne hrun⟩ <;> simp only [hd]
    exacts [hrun, h.interval_ne hrun, htotal]
  · refine .inl ⟨.of_running ?_ ?_ hp ?_ ⟨htotal, ?_⟩, h.interval_ne hrun⟩ <;> simp only [updateIrq_dma, hd]
    exacts [hrun, h.interval_ne hrun, htotal]
  · exact .inr ⟨by simp [hd], rfl, rfl⟩

/-! #### The dispatch of an alarm -/

/-- The pending alarm of `EV_DMA` dispatched. -/
theorem State.Inv.dmaEntry {s : State} (h : s.Inv) {a : Alarm} (ha : a ∈ s.alarms) (hx : a.expired = true)
    (hp : s.pending a.ev = some a.id) (hev : a.ev = evDma) :
    (Machine.handlerReturn a (dmaTick s).2 (dmaTick s).1).Inv := by
  rw [hev] at hp
  have hrun : s.dma.running = true := h.dma_ok.running_iff.mpr (by simp [hp])
  obtain ⟨hdata, hirq⟩ := dmaTick_data_irq h hrun
  have hsched : (dmaTick s).1.SchedOk := h.sched_ok.congr (by simp) (by simp) (by simp) (by simp) (by simp)
  have ha' : a ∈ (dmaTick s).1.alarms := by simpa using ha
  have htimer : ∀ t, (dmaTick s).1.TimerOk t := fun t => (h.timer_ok t).congr (by simp) (by simp)
  obtain ⟨hdma, hr⟩ | ⟨hxfer, hstop, hr⟩ := dmaTick_dma h.dma_ok hrun
  · exact (State.Inv.of_parts hdata ⟨hsched, hdma, htimer⟩ hirq).handlerReturn ha' hx fun _ h0 => absurd h0 hr
  · rw [hr]
    refine .of_parts hdata.congr ⟨hsched.handlerReturn ha' hx 0, .of_idle ?_ ?_ ?_,
      fun t => (htimer t).congr (by simp) ?_⟩ (by simpa using hirq)
    · simpa using hxfer
    · simpa using hstop
    · rw [State.pending, handlerReturn_event, hev, if_pos ⟨rfl, by simpa using hp, rfl⟩]
    · rw [handlerReturn_event, hev, if_neg fun ⟨he, _⟩ => evTimer_ne_evDma t he]

/-- A timer's number is the lowest bit of the value its event carries (R225, R226). -/
theorem setWidth_extractLsb_bit (t : BitVec 1) : (t.setWidth 32).extractLsb' 0 1 = t := by revert t; decide

/-- R226: everything the handler of a running timer does: it marks the timer, perhaps raises its cause, brings the line
up to date and returns its delay. -/
theorem timerFire_of_running {t : BitVec 1} {s : State} (hrun : (s.tmr t).running = true) :
    ∃ (reached : Bool) (m : BitVec 2), timerFire (t.setWidth 32) s =
      (updateIrq ((s.setTmr t { s.tmr t with reached := reached }).onG (fun g => { g with timerIrq := m })),
        (s.tmr t).delay) := by
  rw [timerFire, setWidth_extractLsb_bit]
  dsimp only
  rw [if_neg (by simp [hrun])]
  refine ⟨(s.tmr t).reached || !(s.tmr t).masked, ?_⟩
  generalize s.setTmr t _ = marked
  split
  · exact ⟨raiseTimerCause t marked.g.timerIrq, rfl⟩
  · exact ⟨marked.g.timerIrq, rfl⟩

/-- The pending alarm of a timer dispatched: a running timer fires and is armed again. -/
theorem State.Inv.timerEntry {s : State} (h : s.Inv) {a : Alarm} (ha : a ∈ s.alarms) (hx : a.expired = true)
    (hp : s.pending a.ev = some a.id) {t : BitVec 1} (hev : a.ev = evTimer t) :
    (Machine.handlerReturn a (timerFire (s.event a.ev).value s).2 (timerFire (s.event a.ev).value s).1).Inv := by
  have hpend : s.pending (evTimer t) ≠ none := by simp [← hev, hp]
  have hrun : (s.tmr t).running = true := (h.timer_ok t).running_iff.mpr hpend
  have hdelay := (h.timer_ok t).delay_ne hrun
  rw [hev, (h.timer_ok t).value_eq hpend]
  obtain ⟨reached, m, hf⟩ := timerFire_of_running hrun
  rw [hf]
  have hfired : (s.setTmr t { s.tmr t with reached := reached }).EventsOk := h.events.setTmr rfl fun _ => hdelay
  exact (State.Inv.of_updateIrq h.data.congr hfired.congr).handlerReturn (by simpa using ha) hx
    fun _ h0 => absurd h0 hdelay

/-- An expired entry stays in the table whatever a peripheral calls (R103). -/
theorem mem_clientCall {a : Alarm} (hx : a.expired = true) (c : ClientCall) {s : State} (ha : a ∈ s.alarms) :
    a ∈ (clientCall c s).alarms := by
  have hkept : ∀ e, a ∈ keptAlarms e s := fun e => mem_keptAlarms.mpr ⟨ha, fun _ => hx⟩
  obtain ⟨e, d, v, -, -, hc⟩ | ⟨e, -, -, hc⟩ | hc := clientCall_cases c s <;> rw [hc]
  · obtain ⟨-, hal, -⟩ | ⟨-, hal, -⟩ := schedAdd_cases e d v s <;> rw [hal]
    · exact List.mem_append_left _ (hkept e)
    · exact hkept e
  · rw [schedRemove_alarms]; exact hkept e
  · exact ha

theorem mem_clientCalls {a : Alarm} (hx : a.expired = true) (l : List ClientCall) {s : State} (ha : a ∈ s.alarms) :
    a ∈ (l.foldl (fun s c => clientCall c s) s).alarms := by
  induction l generalizing s with
  | nil => exact ha
  | cons c l ih => exact ih (mem_clientCall hx c ha)

/-- The pending alarm of an external event dispatched, whatever its handler calls and returns (R109). -/
theorem State.Inv.extEntry {s : State} (h : s.Inv) {a : Alarm} (ha : a ∈ s.alarms) (hx : a.expired = true)
    (hev : 3 ≤ a.ev) (v : BitVec 32) :
    (Machine.handlerReturn a (extHandler a.ev v a.due s).2 (extHandler a.ev v a.due s).1).Inv := by
  have hdrawn : (drawExtAnswer (s.emit (.extFire a.ev v a.due))).2.EventsOk := h.events.congr
  have hcalled : (extHandler a.ev v a.due s).1.EventsOk := hdrawn.clients _
  have ha' : a ∈ (extHandler a.ev v a.due s).1.alarms := mem_clientCalls hx _ (by simpa using ha)
  exact (h.congr h.data.congr hcalled).handlerReturn ha' hx fun _ _ => hev

/-- An expired entry dispatched: a stale one is dropped, any other runs its handler. -/
theorem State.Inv.handlerEntry {s : State} (h : s.Inv) {a : Alarm} (ha : a ∈ s.alarms) (hx : a.expired = true) :
    (handlerEntry a s).Inv := by
  unfold Machine.handlerEntry
  split
  · next hp =>
    have := h.handlerReturn ha hx (r := 0) fun hp' => absurd hp' hp
    rwa [Machine.handlerReturn, if_pos hp] at this
  next hp =>
  have hp : s.pending a.ev = some a.id := not_not.mp hp
  dsimp only
  unfold runHandler
  split
  · next hev => exact h.dmaEntry ha hx hp hev
  next hdma =>
  split
  · next hev =>
    rcases hev with hev | hev
    · exact h.timerEntry (t := 0) ha hx hp hev
    · exact h.timerEntry (t := 1) ha hx hp hev
  · next hev => exact h.extEntry ha hx (by simp only [evDma] at hdma; omega) _

theorem State.Inv.alarmDispatch {s : State} (h : s.Inv) : (alarmDispatch s).Inv := by
  obtain ⟨hs, -⟩ | ⟨a, ha, hx, hs⟩ := alarmDispatch_cases s <;> rw [hs]
  · exact h
  · exact h.handlerEntry ha hx

/-- R111: every round of a wait is time passing, an expiry and a dispatch; its end sets the clock only. -/
theorem State.Inv.waitUntil {s : State} (h : s.Inv) (target : Nat) : (waitUntil target s).Inv :=
  waitLoop_keeps (P := State.Inv)
    (fun _ a _ hs => ((hs.atTime (.inl (Nat.le_max_left _ a.due))).expire a.id).alarmDispatch)
    (fun _ hnone hs => hs.atTime (.inr fun a ha => (waitNext_eq_none.mp hnone a ha).1))
    (fun _ hs => hs.congr hs.data.congr hs.events.congr) _ h

/-! #### The commands that reset, configure and acknowledge -/

/-- R211: both timers stopped, their events inactive. -/
theorem State.EventsOk.stopTimers {s : State} (h : s.EventsOk) :
    State.EventsOk
      { schedRemove (evTimer 1) (schedRemove (evTimer 0) s) with tmr0 := bootTimer, tmr1 := bootTimer } := by
  have hpending : ∀ k, (schedRemove (evTimer 1) (schedRemove (evTimer 0) s)).pending k =
      if k = evTimer 1 then none else if k = evTimer 0 then none else s.pending k := fun k => by
    rw [schedRemove_pending, schedRemove_pending]
  refine ⟨((h.sched_ok.remove _).remove _).congr rfl rfl rfl rfl rfl, h.dma_ok.congr (by simp) ?_,
    fun t => .of_stopped ?_ ?_⟩
  · exact (hpending evDma).trans (by simp [evDma, evTimer])
  · simp [State.tmr, bootTimer]
  · refine (hpending (evTimer t)).trans ?_
    rcases bit1_cases t with rfl | rfl <;> simp

/-- R211: a device reset keeps data and events; its pointer and line are due for an update. -/
theorem State.Inv.deviceReset {s : State} (h : s.Inv) : (deviceReset s).DataOk ∧ (deviceReset s).EventsOk := by
  have hevents : State.EventsOk { s with chans := mapChannels (Channel.deviceReset s.cfg) s.chans } := h.events.congr
  have hcleared : State.EventsOk
      { Machine.dmaCancel { s with chans := mapChannels (Channel.deviceReset s.cfg) s.chans } with
        g := { s.g with dmaControl := 0, waveIrq := 0, rampIrq := 0, timerIrq := 0, irqChan := 0 } } :=
    hevents.dmaCancel.congr
  unfold Machine.deviceReset
  refine ⟨.setVoiceCount (h.data.resetChans.congr) _, ?_⟩
  exact hcleared.stopTimers.congr

/-- R210: the mode byte stored, after a device reset where bit 0 is 0. -/
theorem State.Inv.resetWord {s : State} (h : s.Inv) (run : Bool) (m : BitVec 8) :
    (updateIrq ((if run then s else Machine.deviceReset s).onG (fun g => { g with mode := m }))).Inv := by
  obtain ⟨hd, he⟩ := h.deviceReset
  split
  · exact .of_updateIrq h.data.congr h.events.congr
  · exact .of_updateIrq hd.congr he.congr

@[simp] theorem blameCleared_activeVoiceCount (g : Globals) :
    (blameCleared g).activeVoiceCount = g.activeVoiceCount := by unfold blameCleared; split <;> rfl

@[simp] theorem blameCleared_baseRate (g : Globals) : (blameCleared g).baseRate = g.baseRate := by
  unfold blameCleared; split <;> rfl

theorem State.DataOk.startTimer {s : State} (h : s.DataOk) (t : BitVec 1) : (startTimer t s).DataOk := by
  unfold Machine.startTimer
  dsimp only
  split
  · exact h
  · split <;> exact h.congr

theorem State.DataOk.stopTimer {s : State} (h : s.DataOk) (t : BitVec 1) : (stopTimer t s).DataOk := by
  unfold Machine.stopTimer; exact h.congr

/-- R225: a timer configured with a delay that is not zero, then started or stopped. -/
theorem State.Inv.configTimer {s : State} (h : s.Inv) (t : BitVec 1) {x : Timer}
    (hrun : x.running = (s.tmr t).running) (hdelay : x.delay ≠ 0) (run : Bool) :
    (updateIrq (if run then startTimer t (s.setTmr t x) else stopTimer t (s.setTmr t x))).Inv := by
  have hd : (s.setTmr t x).DataOk := h.data.congr
  have he : (s.setTmr t x).EventsOk := h.events.setTmr hrun fun _ => hdelay
  split
  · exact .of_updateIrq (hd.startTimer t) (he.startTimer (by rwa [State.tmr_setTmr_self]))
  · exact .of_updateIrq (hd.stopTimer t) (he.stopTimer t)

/-- R227: the timers acknowledged. -/
theorem State.Inv.ackTimers {s : State} (h : s.Inv) (r0 r1 : Bool) (m : BitVec 2) :
    (updateIrq { s with
      tmr0 := { s.tmr0 with reached := r0 }
      tmr1 := { s.tmr1 with reached := r1 }
      g := { s.g with timerIrq := m } }).Inv := by
  have h0 : (s.setTmr 0 { s.tmr0 with reached := r0 }).EventsOk := h.events.setTmr rfl (h.timer_ok 0).delay_ne
  have h1 : ((s.setTmr 0 { s.tmr0 with reached := r0 }).setTmr 1 { s.tmr1 with reached := r1 }).EventsOk :=
    h0.setTmr (by simp [State.tmr]) (h.timer_ok 1).delay_ne
  exact .of_updateIrq h.data.congr h1.congr

/-- R129: a DMA control byte stored and coupled to the engine. -/
theorem State.Inv.dmaControl {s : State} (h : s.Inv) (b : BitVec 9) (enable : Bool) (n : BitVec 32) (w : UnitWidth)
    (us : BitVec 32) (auto : Bool) :
    (updateIrq (if enable then dmaStart n w us auto (s.onG (fun g => { g with dmaControl := b }))
      else dmaCancel (s.onG (fun g => { g with dmaControl := b })))).Inv := by
  have he : (s.onG (fun g => { g with dmaControl := b })).EventsOk := h.events.congr
  split
  · exact .of_updateIrq h.data.congr (he.dmaStart n w us auto)
  · exact .of_updateIrq h.data.congr he.dmaCancel

theorem State.Inv.memWrite {s : State} (h : s.Inv) (a : Addr) (v : Byte) : (s.memWrite a v).Inv :=
  h.congr (h.data.memWrite a v) h.events.congr

/-! #### Every command, every stimulus, every step -/

/-- The state that an outcome answers, if it answers one, meets the invariant. -/
def NextInv (o : Outcome State Fault Refusal) : Prop := ∀ t, o = .next t → t.Inv

theorem NextInv.next {t : State} (h : t.Inv) : NextInv (.next t) := fun _ ht => Outcome.next.inj ht ▸ h

/-- R133: a byte pushed, or dropped by a full FIFO. -/
theorem State.Inv.fifoPush {s : State} (h : s.Inv) (b : Byte) : NextInv (execFifoPush b s) := by
  unfold execFifoPush
  split
  · exact .next (h.emit _).done
  · next hroom => exact .next (h.withFifo (h.fifo_ok.push hroom b)).done

/-- R134: a byte popped from a running FIFO, or nothing. -/
theorem State.Inv.fifoPop {s : State} (h : s.Inv) : NextInv (execFifoPop s) := by
  cases hr : s.fifo.state with
  | stopped => rw [execFifoPop_of_stopped hr]; exact .next (h.ret 0)
  | running => rw [execFifoPop_of_running hr]; exact .next ((h.withFifo (h.fifo_ok.pop h.cfg_wf hr)).ret _)

/-- The scheduler commands are calls of a client; an id that is not external makes them undefined (R85). -/
theorem State.Inv.evAdd {s : State} (h : s.Inv) (e : BitVec 8) (d : BitVec 32) (v : BitVec 16) :
    NextInv (execEvAdd e d v s) := by
  have hc := h.client (.add e.toNat d (v.setWidth 32))
  unfold execEvAdd
  split
  · next he => rw [clientCall, if_pos he] at hc; exact .next hc.done
  · exact .next h.undefined

theorem State.Inv.evRemove {s : State} (h : s.Inv) (e : BitVec 8) : NextInv (execEvRemove e s) := by
  have hc := h.client (.remove e.toNat)
  unfold execEvRemove
  split
  · next he => rw [clientCall, if_pos he] at hc; exact .next hc.done
  · exact .next h.undefined

theorem State.Inv.getEv {s : State} (h : s.Inv) (e : BitVec 8) : NextInv (execGetEv e s) := by
  unfold execGetEv
  split
  · exact .next (h.ret _)
  · exact .next h.undefined

/-- Every command keeps the invariant. -/
theorem State.Inv.exec {s : State} (h : s.Inv) (i : Instr) : NextInv (exec i s) := by
  have hsel : s.selChan.Ok s.cfg s.g.activeVoiceCount.toNat := h.chans_ok s.sel
  cases i with
  | selCh | memAddr | dmaSetup | dmaInterval | dmaAddr => exact .next (h.withLatches ..).done
  | setWctrl | setWstart | setWend | setWaddr | setRctrl | setRstart | setRend =>
    exact .next (h.onSel (hsel.withFree ..)).done
  | setWfreq f => exact .next (h.onSel (hsel.withFreq f)).done
  | setRrate r => exact .next (h.onSel (hsel.withRate r)).done
  | setRvol v =>
    exact .next (h.onSel (hsel.withLevel s.selChan.panPosition (v := clampRamp s.cfg v.toNat)
      (clampRamp_lt h.cfg_wf _))).done
  | setPan p => exact .next (h.onSel (hsel.withLevel p hsel.rampVol_lt)).done
  | getCh | getWctrl | getWfreq | getWstart | getWend | getWaddr => exact .next (h.ret _)
  | getRctrl | getRrate | getRstart | getRend | getRvol | getPan => exact .next (h.ret _)
  | getMode | getVoices | getRate | getIrqst | getMemaddr | memPeek | getTmr => exact .next (h.ret _)
  | getDmaaddr | getFifo => exact .next (h.ret _)
  | reset w => exact .next (h.resetWord _ _).done
  | setVoices n => exact .next (State.Inv.of_updateIrq (h.data.setVoiceCount n.toNat) h.events.congr).done
  | ackVirq => exact .next (State.Inv.ret (.of_updateIrq h.data.congr h.events.congr) _)
  | memPoke v => exact .next (h.memWrite _ v).done
  | tmrCfg t reload raiseIrq masked run =>
    have hdelay := timerDelay_ne_zero h.cfg_wf t reload
    exact .next (h.configTimer t (x := { s.tmr t with reload, raiseIrq, masked, delay := timerDelay s.cfg t reload })
      rfl hdelay run).done
  | tmrAck => exact .next (h.ackTimers _ _ _).done
  | setDmactl v => exact .next (h.dmaControl _ _ _ _ _ _).done
  | getDmactl => exact .next (State.Inv.ret (.of_updateIrq h.data.congr h.events.congr) _)
  | fifoPush b => exact h.fifoPush b
  | fifoPop => exact h.fifoPop
  | evAdd e d v => exact h.evAdd e d v
  | evRemove e => exact h.evRemove e
  | getEv e => exact h.getEv e
  | tick inL inR => exact .next ((h.audioTick inL inR).ret _)
  | wait us => exact .next (h.waitUntil _).done

theorem State.Inv.serveWord {s : State} (h : s.Inv) (w : CmdWord) : NextInv (serveWord w s) := by
  unfold Machine.serveWord
  split
  · exact h.exec _
  · exact .next h.undefined

theorem State.Inv.servePortWord {s : State} (h : s.Inv) (w : CmdWord) : NextInv (servePortWord w s) := by
  unfold Machine.servePortWord
  split
  · split
    · exact .next h.undefined
    · exact h.exec _
  · exact .next h.undefined

theorem State.Inv.serve {s : State} (h : s.Inv) (x : Stimulus) : NextInv (serve x s) := by
  cases x with
  | word w => exact h.serveWord w
  | portWord w => exact h.servePortWord w
  | audioTick inL inR => exact .next (h.audioTick inL inR)
  | timePasses dt => exact .next (h.atTime (.inl (Nat.le_add_right s.now dt)))
  | alarmExpire id => exact .next (h.expire id)
  | alarmDispatch => exact .next h.alarmDispatch
  | clientCall call => exact .next (h.client call)
  | waitUntil target => exact .next (h.waitUntil _)

/-- Settles O59: a step serves the first stimulus, if there is one, and serving any stimulus keeps the invariant. -/
theorem everyStepKeepsTheInvariants : Obligations.EveryStepKeepsTheInvariants := by
  intro s t h hstep
  cases hin : s.inbox with
  | nil =>
    rw [step_of_nil hin] at hstep
    exact Outcome.next.inj hstep ▸ h
  | cons x rest =>
    rw [step_of_cons hin] at hstep
    exact (h.begin rest).serve x t hstep

/-! #### Boot -/

/-- R48: no event is active at boot. -/
theorem State.boot_event (c : Config) (e : Nat) : (State.boot c).event e = ⟨none, 0⟩ :=
  List.getD_eq_getElem?_getD.trans (List.getElem?_getD_replicate_default_eq _ _ _)

/-- R48: every channel is the same at boot. -/
theorem State.boot_chan (c : Config) (i : ChanIdx) : (State.boot c).chan i = bootChannel c := by
  simp [State.chan, State.boot, Vector.get_eq_getElem]

/-- R48: the boot channel's derived fields are those of its registers. -/
theorem bootChannel_ok {c : Config} (h : c.WF) : (bootChannel c).Ok c (clampVoices c.voicesDefault) :=
  ⟨(maxRamp_bounds_of_wf h).1, rfl, rfl, rfl, rfl⟩

theorem State.boot_data {c : Config} (h : c.WF) : (State.boot c).DataOk := by
  have hv : (State.boot c).g.activeVoiceCount.toNat = clampVoices c.voicesDefault := toNat_clampVoices _
  have hthreshold := fifoThreshold_bounds_of_wf h
  have hcap : 0 < c.fifoCapacity := by omega
  have hfifo : bootFifo.Ok c :=
    ⟨hcap, hcap, by simp [bootFifo], by simp [bootFifo], fun _ => hthreshold.1, Memory.nil_wf _ _⟩
  refine ⟨h, fun i => ?_, ?_, ?_, ?_, hfifo, Memory.nil_wf _ _⟩
  · rw [State.boot_chan, hv]; exact bootChannel_ok h
  · rw [hv]; exact (clampVoices_bounds _).1
  · rw [hv]; exact (clampVoices_bounds _).2
  · rw [hv]; rfl

theorem State.boot_events (c : Config) : (State.boot c).EventsOk := by
  have hp : ∀ e, (State.boot c).pending e = none := fun e => by rw [State.pending, State.boot_event]
  refine ⟨⟨.nil, by simp [State.boot], Nat.zero_le _, by simp [State.boot], by simp [hp], by simp [State.boot], ?_⟩,
    .of_idle rfl rfl (hp _), fun t => .of_stopped ?_ (hp _)⟩
  · simp [State.boot]
  · simp [State.tmr, State.boot, bootTimer]

/-- R48: no cause is set at boot and the line is not asserted. -/
theorem State.boot_irq (c : Config) : (State.boot c).g.IrqOk := by
  have hnone : voicePending (bootGlobals c) = 0 := by simp [voicePending, bootGlobals]
  have hstatus : effectiveIrqStatus (bootGlobals c) = 0 := by
    simp [effectiveIrqStatus, statusRamp, statusWave, statusTimer0, statusTimer1, statusDma, bootGlobals,
      modeIrqMaster, dmaTc]
  exact ⟨by rw [State.boot, hstatus]; rfl, fun h => absurd hnone h⟩

/-- Settles O58: at boot nothing is armed, no cause is set and every derived field is the one of its register. -/
theorem theInvariantsHoldAfterBoot : Obligations.TheInvariantsHoldAfterBoot := by
  have hboot : ∀ c : Config, c.WF → (State.boot c).Inv := fun c h =>
    .of_parts (State.boot_data h) (State.boot_events c) (State.boot_irq c)
  exact ⟨hboot, hboot vectorConfig (by decide)⟩

end Sys2Proof.Machine

/-! ### The family of `20_memory.md`: the 16-bit remap, coherence of the fetch, words served in order -/

namespace Sys2Proof.Machine

/-! #### The 16-bit remap (R66) -/

theorem bankBits_bounds_of_wf {c : Config} (h : c.WF) : 2 ≤ c.bankBits ∧ c.bankBits ≤ 24 := by
  obtain ⟨⟨hlo, hmem, hhi⟩, -⟩ := h
  exact ⟨hlo, hmem.trans hhi⟩

/-- The mask that clears the low `b` bits of an address shifts them out and zeros in. -/
theorem and_not_lowMask (a : Addr) (b : Nat) : a &&& ~~~ BitVec.ofNat 24 (2 ^ b - 1) = a >>> b <<< b := by
  apply BitVec.eq_of_getElem_eq
  intro i hi
  have hmask : (BitVec.ofNat 24 (2 ^ b - 1))[i] = decide (i < b) := by
    rw [← BitVec.getLsbD_eq_getElem, BitVec.getLsbD_ofNat, Nat.testBit_two_pow_sub_one]
    simp [hi]
  by_cases hb : i < b
  · simp [hmask, hb]
  · simp [hmask, hb, Nat.add_sub_cancel' (Nat.le_of_not_lt hb), hi]

/-- R66: the bank-select mask keeps the base of the bank. -/
theorem toNat_bankBase (a : Addr) (b : Nat) :
    (a &&& ~~~ BitVec.ofNat 24 (2 ^ b - 1)).toNat = a.toNat / 2 ^ b * 2 ^ b := by
  have hle : a.toNat / 2 ^ b * 2 ^ b < 2 ^ 24 := (Nat.div_mul_le_self _ _).trans_lt a.isLt
  rw [and_not_lowMask, BitVec.toNat_shiftLeft, BitVec.toNat_ushiftRight, Nat.shiftRight_eq_div_pow,
    Nat.shiftLeft_eq, Nat.mod_eq_of_lt hle]

/-- R66: the low `b` bits doubled stay inside a bank of `2^(b + 1)` bytes. -/
theorem double_mod_lt (k b : Nat) : 2 * (k % 2 ^ b) < 2 ^ (b + 1) := by
  have := Nat.mod_lt k (Nat.two_pow_pos b)
  omega

/-- R66: the half mask and the shift give twice the low `b` bits, as long as the bank fits 24 bits. -/
theorem toNat_doubledOffset (a : Addr) {b : Nat} (hb : b + 1 ≤ 24) :
    ((a &&& BitVec.ofNat 24 (2 ^ b - 1)) <<< 1).toNat = 2 * (a.toNat % 2 ^ b) := by
  have hfit : 2 * (a.toNat % 2 ^ b) < 2 ^ 24 :=
    (double_mod_lt _ _).trans_le (Nat.pow_le_pow_right (by decide) hb)
  have hmask : 2 ^ b - 1 < 2 ^ 24 :=
    (Nat.sub_lt (Nat.two_pow_pos b) one_pos).trans_le (Nat.pow_le_pow_right (by decide) (by omega))
  rw [BitVec.toNat_shiftLeft, BitVec.toNat_and, BitVec.toNat_ofNat, Nat.mod_eq_of_lt hmask,
    Nat.and_two_pow_sub_one_eq_mod, Nat.shiftLeft_eq, pow_one, Nat.mul_comm, Nat.mod_eq_of_lt hfit]

/-- R66: the remap as a number; base and doubled offset share no bit, so that their union is their sum. -/
theorem toNat_remap16 {c : Config} (h : c.WF) (a : Addr) :
    (remap16 c a).toNat = remapIndex c.bankBits a.toNat := by
  obtain ⟨hlo, hhi⟩ := bankBits_bounds_of_wf h
  obtain ⟨b, hb⟩ : ∃ b, c.bankBits = b + 1 := ⟨c.bankBits - 1, by omega⟩
  rw [remap16, remapIndex, hb, Nat.add_sub_cancel, BitVec.toNat_or, toNat_bankBase,
    toNat_doubledOffset a (by omega), Nat.mul_comm, Nat.two_pow_add_eq_or_of_lt (double_mod_lt _ _)]

/-- R66: the sample index keeps its bank. -/
theorem remapIndex_div (k : Nat) {b : Nat} (hb : 1 ≤ b) : remapIndex b k / 2 ^ b = k / 2 ^ b := by
  have hoff : 2 * (k % 2 ^ (b - 1)) < 2 ^ b := by
    simpa only [Nat.sub_add_cancel hb] using double_mod_lt k (b - 1)
  rw [remapIndex, Nat.mul_comm, Nat.mul_add_div (Nat.two_pow_pos b), Nat.div_eq_of_lt hoff, Nat.add_zero]

/-- R62: a bank has an even number of bytes, so that every sample starts at an even address. -/
theorem remapIndex_even (k : Nat) {b : Nat} (hb : 1 ≤ b) : remapIndex b k % 2 = 0 := by
  have hbank : 2 ∣ k / 2 ^ b * 2 ^ b := (dvd_pow_self 2 (by omega)).mul_left _
  exact Nat.mod_eq_zero_of_dvd (hbank.add (Nat.dvd_mul_right 2 _))

/-- Settles O21: the remap is `remapIndex`, which keeps the bank and is even. -/
theorem remapKeepsTheBankAndDoublesTheOffset : Obligations.RemapKeepsTheBankAndDoublesTheOffset := by
  intro c a h
  have hb : 1 ≤ c.bankBits := one_le_two.trans (bankBits_bounds_of_wf h).1
  rw [toNat_remap16 h]
  exact ⟨rfl, remapIndex_div _ hb, remapIndex_even _ hb⟩

/-! #### Coherence of the fetch (R74, R191) -/

theorem toNat_waveInt (v : WaveQ) : (waveInt v).toNat = v.toNat / 1024 := by
  rw [waveInt, BitVec.extractLsb'_toNat, Nat.shiftRight_eq_div_pow]
  omega

theorem waveFrac_eq (v : WaveQ) : waveFrac v = v.toNat % 1024 := by
  simp [waveFrac]

/-- R193: at weight 0 the first sample is heard. -/
@[simp] theorem interp_zero (s0 s1 : Int) : interp s0 s1 0 = s0 := by simp [interp]

/-- R191: an 8-bit voice with fraction 0 hears the byte at its integer address. -/
theorem fetchSample_of_whole8 {i : ChanIdx} {s : State} (h8 : (s.chan i).waveControl.getLsbD 3 = false)
    (h0 : (s.chan i).waveAddr.toNat % 1024 = 0) :
    fetchSample i s = sample8 (s.memRead (waveInt (s.chan i).waveAddr)) := by
  have hmode : ctlBit16 (s.chan i).waveControl = false := h8
  simp [fetchSample, sampleAt, hmode, waveFrac_eq, h0, samplePair8]

/-- R65: a device-memory write is read back at every address that reaches the same byte. -/
theorem State.memRead_memWrite_alias {a b : Addr} {s : State} (v : Byte) (h : maskAddr s.cfg b = maskAddr s.cfg a) :
    (s.memWrite a v).memRead b = v := by
  simp [State.memRead, State.byteAt_memWrite, h]

/-- Settles O27: the poke leaves the voice as it was, so it hears the byte at its address, which is the poked one. -/
theorem aPokedByteIsHeardByTheNextFetch : Obligations.APokedByteIsHeardByTheNextFetch := by
  intro s v i h8 h0 haddr
  have hreach : maskAddr s.cfg (waveInt (s.chan i).waveAddr) = maskAddr s.cfg s.g.memAddr := by
    rw [maskAddr, toNat_waveInt, haddr, maskAddr]
  refine ⟨_, exec_memPoke v s, ?_⟩
  calc fetchSample i (s.memWrite s.g.memAddr v).done
      = sample8 ((s.memWrite s.g.memAddr v).memRead (waveInt (s.chan i).waveAddr)) := fetchSample_of_whole8 h8 h0
    _ = sample8 v := by rw [State.memRead_memWrite_alias v hreach]
    _ = 256 * v.toInt := Int.mul_comm _ _

/-! #### Words served (R76, R89) -/

theorem serveWord_of_decode {w : CmdWord} {i : Instr} (h : decode w = some i) (s : State) :
    serveWord w s = exec i s := by
  simp only [serveWord, h]

/-- R89: the hardware command port knows no environment word. -/
theorem servePortWord_of_decode {w : CmdWord} {i : Instr} (h : decode w = some i) (s : State) :
    servePortWord w s = if i.format = .env then .next (undefinedCommand s) else exec i s := by
  simp only [servePortWord, h]

/-- Settles O5: a step serves the first stimulus; a word there runs as its port has it. -/
theorem stepRunsTheDecodedCommand : Obligations.StepRunsTheDecodedCommand := by
  intro s w rest i hd
  refine ⟨fun h => ?_, fun h hcmd => ?_, fun h henv => ?_, fun nbits k hw => ?_⟩
  · exact (step_of_cons h).trans (serveWord_of_decode hd _)
  · exact (step_of_cons h).trans ((servePortWord_of_decode hd _).trans (if_neg hcmd))
  · exact (step_of_cons h).trans ((servePortWord_of_decode hd _).trans (if_pos henv))
  · subst hw
    exact (step_of_cons (State.present_inbox _ s)).trans (serveWord_of_decode hd _)

end Sys2Proof.Machine

/-! ### The family of `30_encoding.md`: decoder and encoder, the opcode map, registers read back, undefined commands -/

namespace Sys2Proof.Machine

/-! #### Masks and cuts of bit vectors -/

/-- The low `k` bits kept in place are the low `k` bits cut out and zero-extended. -/
theorem and_lowMask {m : Nat} (k : Nat) (x : BitVec m) :
    x &&& BitVec.ofNat m (2 ^ k - 1) = (x.extractLsb' 0 k).setWidth m := by
  apply BitVec.eq_of_getLsbD_eq
  intro i hi
  rw [BitVec.getLsbD_and, BitVec.getLsbD_ofNat, Nat.testBit_two_pow_sub_one, BitVec.getLsbD_setWidth,
    BitVec.getLsbD_extractLsb', Nat.zero_add, Bool.and_comm]
  simp [hi]

/-- A zero-extended operand is cut out again as it was. -/
theorem cut_setWidth {k m : Nat} (h : k ≤ m) (v : BitVec k) : (v.setWidth m).extractLsb' 0 k = v := by
  rw [BitVec.extractLsb'_setWidth_of_le (by omega), BitVec.extractLsb'_eq_self]

/-- An operand of `k` bits is what a cut of its field reads iff the field agrees with it on the low `k` bits (R81). -/
theorem cut_eq_iff_and_lowMask {k m : Nat} (h : k ≤ m) (x : BitVec m) (v : BitVec k) :
    x.extractLsb' 0 k = v ↔ x &&& BitVec.ofNat m (2 ^ k - 1) = v.setWidth m := by
  rw [and_lowMask]
  refine ⟨congrArg _, fun hx => ?_⟩
  rw [← cut_setWidth h (x.extractLsb' 0 k), hx, cut_setWidth h]

/-- A zero-extended operand has no bit above its width. -/
theorem setWidth_and_lowMask {k m : Nat} (h : k ≤ m) (v : BitVec k) :
    v.setWidth m &&& BitVec.ofNat m (2 ^ k - 1) = v.setWidth m :=
  (cut_eq_iff_and_lowMask h _ v).mp (cut_setWidth h v)

/-- A cut of two neighbouring fields is the pair of their cuts. -/
theorem cut_eq_append_iff {a k : Nat} (m n : Nat) (x : BitVec k) (hi : BitVec m) (lo : BitVec n) :
    x.extractLsb' a (m + n) = hi ++ lo ↔ x.extractLsb' (a + n) m = hi ∧ x.extractLsb' a n = lo := by
  rw [← BitVec.extractLsb'_append_extractLsb'_eq_extractLsb' rfl]
  refine ⟨fun h => ⟨?_, ?_⟩, fun ⟨hhi, hlo⟩ => by rw [hhi, hlo]⟩
  · simpa only [BitVec.extractLsb'_append_eq_left] using congrArg (·.extractLsb' n m) h
  · simpa only [BitVec.extractLsb'_append_eq_right] using congrArg (·.extractLsb' 0 n) h

/-- A vector of two fields is the pair of its cuts. -/
theorem eq_append_iff (m n : Nat) (x : BitVec (m + n)) (hi : BitVec m) (lo : BitVec n) :
    x = hi ++ lo ↔ x.extractLsb' n m = hi ∧ x.extractLsb' 0 n = lo := by
  simpa only [BitVec.extractLsb'_eq_self, Nat.zero_add] using cut_eq_append_iff (a := 0) m n x hi lo

/-- A cut of one bit is that bit. -/
theorem cut_eq_ofBool_iff {a k : Nat} (x : BitVec k) (b : Bool) :
    x.extractLsb' a 1 = BitVec.ofBool b ↔ x.getLsbD a = b := by
  have hbit : x.extractLsb' a 1 = BitVec.ofBool (x.getLsbD a) := by
    apply BitVec.eq_of_getElem_eq
    intro i hi
    simp [Nat.lt_one_iff.mp hi]
  rw [hbit, BitVec.ofBool_eq_iff_eq]

/-! #### The fields of a word (R80) -/

theorem word_eq_fields_iff (w : CmdWord) (op arg : BitVec 8) (imm : Imm) :
    w = op ++ arg ++ imm ↔ opField w = op ∧ argField w = arg ∧ immField w = imm := by
  rw [eq_append_iff 16 48, cut_eq_append_iff 8 8, and_assoc]
  rfl

theorem decode_append (op arg : BitVec 8) (imm : Imm) : decode (op ++ arg ++ imm) = decodeFields op arg imm := by
  obtain ⟨hop, harg, himm⟩ := (word_eq_fields_iff _ op arg imm).mp rfl
  rw [decode, hop, harg, himm]

/-- R81: a word agrees with an encoding on the used bits iff it has its opcode and each field agrees likewise. -/
theorem and_usedBits_eq_encode_iff (w : CmdWord) (i : Instr) :
    w &&& i.usedBits = encode i ↔
      opField w = i.opcode ∧ argField w &&& i.argUsed = i.argBits ∧ immField w &&& i.immUsed = i.immBits := by
  obtain ⟨hop, harg, himm⟩ := (word_eq_fields_iff i.usedBits 0xFF#8 i.argUsed i.immUsed).mp rfl
  have hopAnd : opField (w &&& i.usedBits) = opField w := by
    rw [opField, BitVec.extractLsb'_and, ← opField, ← opField, hop]
    exact BitVec.and_allOnes
  rw [encode, word_eq_fields_iff, hopAnd, argField, immField, BitVec.extractLsb'_and, BitVec.extractLsb'_and,
    ← argField, ← argField, ← immField, ← immField, harg, himm]

/-! #### The decoder by its rows (R83) -/

/-- R83: a row reads commands of its own opcode only. -/
theorem opcode_of_decodeFields {op arg : BitVec 8} {imm : Imm} {i : Instr} (h : decodeFields op arg imm = some i) :
    op = i.opcode := by
  unfold decodeFields at h
  split at h <;> cases h <;> rfl

/-- R83: every command has its row. -/
theorem decodeFields_opcode_isSome (i : Instr) (arg : BitVec 8) (imm : Imm) :
    (decodeFields i.opcode arg imm).isSome := by
  cases i <;> rfl

/-- A row of format I: the operand is cut from `imm`, and `arg` is not used (R81, R82). -/
theorem immRow_iff {op : BitVec 8} {k : Nat} {C : BitVec k → Instr} (hk : k ≤ 48) (hC : Function.Injective C)
    (arg : BitVec 8) (imm : Imm) (v : BitVec k)
    (hrow : decodeFields op arg imm = some (C (imm.extractLsb' 0 k))) :
    decodeFields op arg imm = some (C v) ↔ arg &&& 0 = 0 ∧ imm &&& lowImm k = v.setWidth 48 := by
  rw [hrow, Option.some_inj, hC.eq_iff, cut_eq_iff_and_lowMask hk]
  exact (and_iff_right BitVec.and_zero).symm

/-- A row of format A: the operand is cut from `arg`, and `imm` is not used (R81, R82). -/
theorem argRow_iff {op : BitVec 8} {k : Nat} {C : BitVec k → Instr} (hk : k ≤ 8) (hC : Function.Injective C)
    (arg : BitVec 8) (imm : Imm) (v : BitVec k)
    (hrow : decodeFields op arg imm = some (C (arg.extractLsb' 0 k))) :
    decodeFields op arg imm = some (C v) ↔
      arg &&& BitVec.ofNat 8 (2 ^ k - 1) = v.setWidth 8 ∧ imm &&& 0 = 0 := by
  rw [hrow, Option.some_inj, hC.eq_iff, cut_eq_iff_and_lowMask hk]
  exact (and_iff_left BitVec.and_zero).symm

/-- A value that fills `imm` uses every bit of it (R81). -/
theorem and_lowImm_all (imm : Imm) : imm &&& lowImm 48 = imm := BitVec.and_allOnes

/-- R81, R83: the row of a command reads it from exactly the fields that agree with its encoding on the used bits. -/
theorem decodeFields_opcode_iff (i : Instr) (arg : BitVec 8) (imm : Imm) :
    decodeFields i.opcode arg imm = some i ↔ arg &&& i.argUsed = i.argBits ∧ imm &&& i.immUsed = i.immBits := by
  cases i with
  | getCh | getWctrl | getWfreq | getWstart | getWend | getWaddr =>
    exact iff_of_true rfl ⟨BitVec.and_zero, BitVec.and_zero⟩
  | getRctrl | getRrate | getRstart | getRend | getRvol | getPan =>
    exact iff_of_true rfl ⟨BitVec.and_zero, BitVec.and_zero⟩
  | getMode | getVoices | getRate | getIrqst | ackVirq | getMemaddr | memPeek =>
    exact iff_of_true rfl ⟨BitVec.and_zero, BitVec.and_zero⟩
  | getDmaaddr | getDmactl | fifoPop | getFifo =>
    exact iff_of_true rfl ⟨BitVec.and_zero, BitVec.and_zero⟩
  | selCh v | setWctrl v | setWfreq v | setWstart v | setWend v | setWaddr v =>
    exact immRow_iff (by decide) (fun _ _ h => by injection h) arg imm v rfl
  | setRctrl v | setRrate v | setRstart v | setRend v | setRvol v | setPan v =>
    exact immRow_iff (by decide) (fun _ _ h => by injection h) arg imm v rfl
  | reset v | setVoices v | memAddr v | memPoke v | dmaInterval v | dmaAddr v | setDmactl v | fifoPush v =>
    exact immRow_iff (by decide) (fun _ _ h => by injection h) arg imm v rfl
  | tmrAck v | getTmr v => exact argRow_iff (by decide) (fun _ _ h => by injection h) arg imm v rfl
  | evRemove e | getEv e =>
    have hall : arg.extractLsb' 0 8 = arg := BitVec.extractLsb'_eq_self
    exact argRow_iff (by decide) (fun _ _ h => by injection h) arg imm e (hall.symm ▸ rfl)
  | wait us =>
    have hall : imm.extractLsb' 0 48 = imm := BitVec.extractLsb'_eq_self
    exact immRow_iff (by decide) (fun _ _ h => by injection h) arg imm us (hall.symm ▸ rfl)
  | tick inL inR =>
    change some (Instr.tick (imm.extractLsb' 0 24) (imm.extractLsb' 24 24)) = some (.tick inL inR) ↔
      arg &&& 0 = 0 ∧ imm &&& lowImm 48 = inR ++ inL
    rw [Option.some_inj, Instr.tick.injEq, and_lowImm_all, eq_append_iff 24 24, and_comm]
    exact (and_iff_right BitVec.and_zero).symm
  | evAdd e d v =>
    change some (Instr.evAdd arg (imm.extractLsb' 0 32) (imm.extractLsb' 32 16)) = some (.evAdd e d v) ↔
      arg &&& BitVec.allOnes 8 = e ∧ imm &&& lowImm 48 = v ++ d
    rw [Option.some_inj, Instr.evAdd.injEq, BitVec.and_allOnes, and_lowImm_all, eq_append_iff 16 32,
      and_comm (a := imm.extractLsb' 0 32 = d)]
  | dmaSetup auto w16 total =>
    change some (Instr.dmaSetup (arg.getLsbD 0) (arg.getLsbD 1) (imm.extractLsb' 0 32)) =
      some (.dmaSetup auto w16 total) ↔
      arg &&& BitVec.ofNat 8 (2 ^ 2 - 1) = (BitVec.ofBool w16 ++ BitVec.ofBool auto).setWidth 8 ∧
        imm &&& BitVec.ofNat 48 (2 ^ 32 - 1) = total.setWidth 48
    rw [Option.some_inj, Instr.dmaSetup.injEq, ← cut_eq_iff_and_lowMask (by decide),
      ← cut_eq_iff_and_lowMask (by decide), cut_eq_append_iff 1 1, cut_eq_ofBool_iff, cut_eq_ofBool_iff]
    tauto
  | tmrCfg t reload irq masked run =>
    change some (Instr.tmrCfg (arg.extractLsb' 0 1) (imm.extractLsb' 0 8) (imm.getLsbD 8) (imm.getLsbD 9)
      (imm.getLsbD 10)) = some (.tmrCfg t reload irq masked run) ↔
      arg &&& BitVec.ofNat 8 (2 ^ 1 - 1) = t.setWidth 8 ∧
        imm &&& BitVec.ofNat 48 (2 ^ 11 - 1) =
          (BitVec.ofBool run ++ BitVec.ofBool masked ++ BitVec.ofBool irq ++ reload).setWidth 48
    rw [Option.some_inj, Instr.tmrCfg.injEq, ← cut_eq_iff_and_lowMask (by decide),
      ← cut_eq_iff_and_lowMask (by decide), cut_eq_append_iff 3 8, cut_eq_append_iff 2 1, cut_eq_append_iff 1 1,
      cut_eq_ofBool_iff, cut_eq_ofBool_iff, cut_eq_ofBool_iff]
    tauto

/-- R80, R83: the encoding has no bit set that its command does not use. -/
theorem encode_and_usedBits (i : Instr) : encode i &&& i.usedBits = encode i := by
  obtain ⟨hop, harg, himm⟩ := (word_eq_fields_iff (encode i) _ _ _).mp rfl
  rw [and_usedBits_eq_encode_iff, hop, harg, himm]
  refine ⟨rfl, ?_, ?_⟩
  · cases i with
    | tmrCfg | tmrAck | getTmr | dmaSetup => exact setWidth_and_lowMask (by decide) _
    | evAdd | evRemove | getEv => exact BitVec.and_allOnes
    | _ => exact BitVec.and_zero
  · cases i with
    | getCh | getWctrl | getWfreq | getWstart | getWend | getWaddr => exact BitVec.and_zero
    | getRctrl | getRrate | getRstart | getRend | getRvol | getPan => exact BitVec.and_zero
    | getMode | getVoices | getRate | getIrqst | ackVirq | getMemaddr | memPeek => exact BitVec.and_zero
    | tmrAck | getTmr | getDmaaddr | getDmactl | fifoPop | getFifo | evRemove | getEv => exact BitVec.and_zero
    | evAdd | tick | wait => exact and_lowImm_all _
    | _ => exact setWidth_and_lowMask (by decide) _

/-! #### The opcode map (R83) -/

/-- The opcodes of the map of R83: those of the commands, and no others (`opcode_mem_opcodeMap`,
`exists_opcode_of_mem_opcodeMap`). -/
def opcodeMap : List (BitVec 8) :=
  [0x01#8, 0x02#8, 0x03#8, 0x04#8, 0x05#8, 0x06#8, 0x07#8, 0x08#8, 0x09#8, 0x0A#8, 0x0B#8, 0x0C#8,
    0x21#8, 0x22#8, 0x23#8, 0x24#8, 0x25#8, 0x26#8, 0x27#8, 0x28#8, 0x29#8, 0x2A#8, 0x2B#8, 0x2C#8,
    0x40#8, 0x41#8, 0x42#8, 0x43#8, 0x44#8, 0x45#8, 0x46#8, 0x47#8, 0x48#8, 0x49#8, 0x4A#8, 0x4B#8, 0x4C#8, 0x4D#8,
    0x60#8, 0x61#8, 0x62#8, 0x63#8, 0x64#8, 0x65#8, 0x66#8, 0x67#8, 0x68#8, 0x80#8, 0x81#8, 0x82#8, 0xA0#8, 0xA1#8]

theorem opcode_mem_opcodeMap (i : Instr) : i.opcode ∈ opcodeMap := by
  cases i <;> exact List.mem_of_elem_eq_true rfl

theorem exists_opcode_of_mem_opcodeMap {op : BitVec 8} (h : op ∈ opcodeMap) : ∃ i : Instr, i.opcode = op := by
  have hrow : ∀ op ∈ opcodeMap, (decodeFields op 0 0).isSome :=
    List.all_eq_true.mp rfl
  obtain ⟨i, hi⟩ := Option.isSome_iff_exists.mp (hrow op h)
  exact ⟨i, (opcode_of_decodeFields hi).symm⟩

/-! #### The statements -/

/-- Settles O2: the opcode picks the row, and the row reads its operands from the used bits. -/
theorem aWordDecodesByItsUsedBitsAlone : Obligations.AWordDecodesByItsUsedBitsAlone := by
  intro w i
  rw [and_usedBits_eq_encode_iff]
  constructor
  · intro h
    have hop : opField w = i.opcode := opcode_of_decodeFields h
    rw [decode, hop] at h
    exact ⟨hop, (decodeFields_opcode_iff i _ _).mp h⟩
  · rintro ⟨hop, hfields⟩
    rw [decode, hop]
    exact (decodeFields_opcode_iff i _ _).mpr hfields

/-- Settles O1: an encoding agrees with itself on the used bits, which is all the decoder looks at (O2). -/
theorem decodeOfEncodeIsTheCommand : Obligations.DecodeOfEncodeIsTheCommand := fun i =>
  (aWordDecodesByItsUsedBitsAlone (encode i) i).mpr (encode_and_usedBits i)

/-- Settles O3: every opcode of the map is one of a command, whose row is defined; and every command read has its opcode
in the map. -/
theorem undefinedOpcodesAreThoseOutsideTheMap : Obligations.UndefinedOpcodesAreThoseOutsideTheMap := by
  intro w
  change decode w = none ↔ opField w ∉ opcodeMap
  constructor
  · intro hnone hmem
    obtain ⟨i, hi⟩ := exists_opcode_of_mem_opcodeMap hmem
    have hsome := decodeFields_opcode_isSome i (argField w) (immField w)
    rw [hi, ← decode, hnone] at hsome
    cases hsome
  · intro hmem
    by_contra hsome
    obtain ⟨i, hi⟩ := Option.ne_none_iff_exists'.mp hsome
    exact hmem (opcode_of_decodeFields hi ▸ opcode_mem_opcodeMap i)

/-- Settles O4, by running the decoder on the eleven words. -/
theorem wordsOfTheTestVectorsDecode : Obligations.WordsOfTheTestVectorsDecode := by
  unfold Obligations.WordsOfTheTestVectorsDecode
  decide

/-! #### A written register read back (R167) -/

/-- A read word right after a write word hands back what the read command makes of the written state. -/
theorem readBack_of_exec {opW opR : BitVec 8} {imm v : Imm} {s t : State} {i j : Instr}
    (hi : decodeFields opW 0 imm = some i) (hj : decodeFields opR 0 0 = some j)
    (hw : exec i s = .next t) (hr : exec j t = .next (t.ret v)) : readBack opW opR imm s = some v := by
  have hi' : decode (immWord opW imm) = some i := (decode_append ..).trans hi
  have hj' : decode (immWord opR 0) = some j := (decode_append ..).trans hj
  simp only [readBack, runWords, serveWord_of_decode hi', serveWord_of_decode hj', hw, hr, State.ret_result]

/-- R140: a write to the selected channel, and the read of one of its registers. -/
theorem readBack_selChan {opW opR : BitVec 8} {imm : Imm} {s : State} {i j : Instr} {f : Channel → Channel} {k : Nat}
    (reg : Channel → BitVec k) (hi : decodeFields opW 0 imm = some i) (hj : decodeFields opR 0 0 = some j)
    (hw : exec i s = .next (s.onSel f).done) (hr : ∀ t, exec j t = .next (t.ret ((reg t.selChan).setWidth 48))) :
    readBack opW opR imm s = some ((reg (f s.selChan)).setWidth 48) := by
  rw [readBack_of_exec hi hj hw (hr _), State.done_selChan, State.selChan_onSel]

/-- R167: a channel register that stores a cut of the operand reads back the operand truncated to its width. -/
theorem readBack_selChan_cut {opW opR : BitVec 8} {imm : Imm} {s : State} {i j : Instr} {f : Channel → Channel}
    {k : Nat} (reg : Channel → BitVec k) (hi : decodeFields opW 0 imm = some i) (hj : decodeFields opR 0 0 = some j)
    (hw : exec i s = .next (s.onSel f).done) (hr : ∀ t, exec j t = .next (t.ret ((reg t.selChan).setWidth 48)))
    (hcut : reg (f s.selChan) = imm.extractLsb' 0 k) : readBack opW opR imm s = some (imm &&& lowImm k) := by
  rw [readBack_selChan reg hi hj hw hr, hcut, lowImm, and_lowMask]

/-- R167: so does a latch of the register file that stores a cut of the operand. -/
theorem readBack_global_cut {opW opR : BitVec 8} {imm : Imm} {s : State} {i j : Instr} {f : Globals → Globals}
    {k : Nat} (reg : Globals → BitVec k) (hi : decodeFields opW 0 imm = some i) (hj : decodeFields opR 0 0 = some j)
    (hw : exec i s = .next (s.onG f).done) (hr : ∀ t, exec j t = .next (t.ret ((reg t.g).setWidth 48)))
    (hcut : reg (f s.g) = imm.extractLsb' 0 k) : readBack opW opR imm s = some (imm &&& lowImm k) := by
  rw [readBack_of_exec hi hj hw (hr _), State.done_g, State.onG_g, hcut, lowImm, and_lowMask]

/-- R163: a level below `MAX_RAMP` is stored as it is. -/
theorem clampRamp_of_lt {c : Config} {v : RampQ} (h : v.toNat < c.maxRamp) : clampRamp c v.toNat = v := by
  have hclamp : (max 0 (min (v.toNat : Int) (c.maxRamp - 1))).toNat = v.toNat := by omega
  rw [clampRamp, hclamp, BitVec.ofNat_toNat, BitVec.setWidth_eq]

/-- R163: a level at or above `MAX_RAMP` is stored as `MAX_RAMP - 1`. -/
theorem clampRamp_of_le {c : Config} {v : RampQ} (h : c.maxRamp ≤ v.toNat) :
    clampRamp c v.toNat = BitVec.ofNat 24 (c.maxRamp - 1) := by
  have hclamp : (max 0 (min (v.toNat : Int) (c.maxRamp - 1))).toNat = c.maxRamp - 1 := by omega
  rw [clampRamp, hclamp]

/-- R163, R164: the level that `SET_RVOL` stores, as it is read back. -/
theorem setWidth_clampRamp {c : Config} (hc : c.WF) (v : RampQ) :
    (clampRamp c v.toNat).setWidth 48 =
      if (v.setWidth 48).toNat < c.maxRamp then v.setWidth 48 else BitVec.ofNat 48 (c.maxRamp - 1) := by
  have hv : (v.setWidth 48).toNat = v.toNat := BitVec.toNat_setWidth_of_le (by decide)
  rw [hv]
  split
  · next h => rw [clampRamp_of_lt h]
  · next h =>
    obtain ⟨-, hmax⟩ := maxRamp_bounds_of_wf hc
    rw [clampRamp_of_le (Nat.le_of_not_lt h)]
    apply BitVec.eq_of_toNat_eq
    simp only [BitVec.toNat_setWidth, BitVec.toNat_ofNat]
    omega

/-- Settles O15: each pair of words is a store and a read of one register, of the selected channel or of the register
file; only `SET_RVOL` stores something else than a cut of its operand. -/
theorem writtenRegistersReadBack : Obligations.WrittenRegistersReadBack := by
  intro s imm
  refine ⟨?selCh, ?wctrl, ?wfreq, ?wstart, ?wend, ?waddr, ?rctrl, ?rrate, ?rstart, ?rend, fun hc => ?rvol, ?pan,
    ?memAddr, ?dmaAddr⟩
  case selCh => exact readBack_global_cut Globals.selChannel rfl rfl rfl (fun _ => rfl) rfl
  case wctrl => exact readBack_selChan_cut Channel.waveControl rfl rfl rfl (fun _ => rfl) rfl
  case wfreq => exact readBack_selChan_cut Channel.waveFreq rfl rfl rfl (fun _ => rfl) rfl
  case wstart => exact readBack_selChan_cut Channel.waveStart rfl rfl rfl (fun _ => rfl) rfl
  case wend => exact readBack_selChan_cut Channel.waveEnd rfl rfl rfl (fun _ => rfl) rfl
  case waddr => exact readBack_selChan_cut Channel.waveAddr rfl rfl rfl (fun _ => rfl) rfl
  case rctrl => exact readBack_selChan_cut Channel.rampControl rfl rfl rfl (fun _ => rfl) rfl
  case rrate => exact readBack_selChan_cut Channel.rampRate rfl rfl rfl (fun _ => rfl) rfl
  case rstart => exact readBack_selChan_cut Channel.rampStart rfl rfl rfl (fun _ => rfl) rfl
  case rend => exact readBack_selChan_cut Channel.rampEnd rfl rfl rfl (fun _ => rfl) rfl
  case rvol =>
    rw [readBack_selChan Channel.rampVol rfl rfl rfl fun _ => rfl, lowImm, and_lowMask]
    exact congrArg some (setWidth_clampRamp hc _)
  case pan => exact readBack_selChan_cut Channel.panPosition rfl rfl rfl (fun _ => rfl) rfl
  case memAddr => exact readBack_global_cut Globals.memAddr rfl rfl rfl (fun _ => rfl) rfl
  case dmaAddr => exact readBack_global_cut Globals.dmaAddr rfl rfl rfl (fun _ => rfl) rfl

/-! #### Undefined words and event ids (R84, R85, R114) -/

theorem State.ret_sameState (v : Imm) (s : State) : SameState s (s.ret v) := by
  simp [SameState, SameOutside, SameChans, SameTimers, SameSched, SameMem]

theorem undefinedCommand_sameState (s : State) : SameState s (undefinedCommand s) := by
  simp [SameState, SameOutside, SameChans, SameTimers, SameSched, SameMem]

@[simp] theorem undefinedCommand_result (s : State) : (undefinedCommand s).result = some s.cfg.readSentinel := rfl

theorem serveWord_of_undefined {w : CmdWord} (h : decode w = none) (s : State) :
    serveWord w s = .next (undefinedCommand s) := by
  simp only [serveWord, h]

theorem servePortWord_of_undefined {w : CmdWord} (h : decode w = none) (s : State) :
    servePortWord w s = .next (undefinedCommand s) := by
  simp only [servePortWord, h]

/-- Settles O6: either port serves the word as an undefined command. -/
theorem undefinedWordsChangeNoStateAndReadTheSentinel :
    Obligations.UndefinedWordsChangeNoStateAndReadTheSentinel := by
  intro s w rest hw hin
  refine ⟨undefinedCommand (s.begin rest), ?_, undefinedCommand_sameState _, undefinedCommand_result _⟩
  rcases hin with hin | hin
  · exact (step_of_cons hin).trans (serveWord_of_undefined hw _)
  · exact (step_of_cons hin).trans (servePortWord_of_undefined hw _)

/-- R114: `GET_EV` of an event of the table. -/
theorem exec_getEv {e : BitVec 8} {s : State} (h : e.toNat < 3 + s.cfg.extEvents) :
    exec (.getEv e) s = .next (s.ret (if s.pending e.toNat = none then 0 else 1)) := by
  have hval : (if (s.pending e.toNat).isSome then 1 else 0 : Imm) = if s.pending e.toNat = none then 0 else 1 := by
    cases s.pending e.toNat <;> rfl
  rw [← hval]
  exact if_pos (decide_eq_true h)

/-- Settles O43: an id that R85 refuses makes an undefined command. -/
theorem eventIdsAreReadOrRefusedByRange : Obligations.EventIdsAreReadOrRefusedByRange := by
  intro e s
  refine ⟨fun h => ⟨_, exec_getEv h, ⟨rfl, rfl⟩, State.ret_sameState _ s⟩, fun h => ?_, fun h => ?_⟩
  · have hwf : ¬ (Instr.getEv e).wf s.cfg = true := by simpa [Instr.wf] using h
    exact ⟨_, exec_of_not_wf hwf, undefinedCommand_sameState s, undefinedCommand_result s⟩
  · have hext : ¬ s.cfg.isExternal e.toNat = true := by
      rw [Bool.and_eq_true, decide_eq_true_eq, decide_eq_true_eq]
      omega
    refine ⟨fun delay value => ?_, ?_⟩
    · exact ⟨_, exec_of_not_wf (i := .evAdd e delay value) hext, undefinedCommand_sameState s⟩
    · exact ⟨_, exec_of_not_wf (i := .evRemove e) hext, undefinedCommand_sameState s⟩

end Sys2Proof.Machine

/-! ### The family of `40_scheduler.md`: arming, removing, dispatch, `WAIT`, timers and the DMA engine started -/

namespace Sys2Proof.Machine

open Host (Outcome)

/-! #### Commands on external events (R102 to R105) -/

theorem exec_evAdd {e : BitVec 8} {s : State} (h3 : 3 ≤ e.toNat) (he : e.toNat < 3 + s.cfg.extEvents)
    (d : BitVec 32) (v : BitVec 16) :
    exec (.evAdd e d v) s = .next (schedAdd e.toNat d (v.setWidth 32) s).done :=
  if_pos (by simp [h3, he])

theorem exec_evRemove {e : BitVec 8} {s : State} (h3 : 3 ≤ e.toNat) (he : e.toNat < 3 + s.cfg.extEvents) :
    exec (.evRemove e) s = .next (schedRemove e.toNat s).done :=
  if_pos (by simp [h3, he])

/-- Besides the outputs, only the scheduler's table, its next id and event `e` were written. -/
def SchedOnly (e : Nat) (s t : State) : Prop :=
  SameEventsBut e s t ∧ t.now = s.now ∧ SameOutside s t ∧ SameChans s t ∧ t.g = s.g ∧ SameTimers s t ∧
    t.dma = s.dma ∧ t.fifo = s.fifo ∧ SameMem s t

theorem SchedOnly.refl (e : Nat) (s : State) : SchedOnly e s s :=
  ⟨fun _ _ => rfl, rfl, ⟨rfl, rfl, rfl⟩, fun _ => rfl, rfl, ⟨rfl, rfl⟩, rfl, rfl, fun _ => rfl⟩

theorem schedAdd_only (e : Nat) (d v : BitVec 32) (s : State) : SchedOnly e s (schedAdd e d v s) := by
  refine ⟨fun k hk => schedAdd_event_ne d v s hk, ?_⟩
  simp [SameOutside, SameChans, SameTimers, SameMem]

theorem schedRemove_only (e : Nat) (s : State) : SchedOnly e s (schedRemove e s) := by
  refine ⟨fun k hk => by rw [schedRemove_event, if_neg hk], ?_⟩
  simp [SameOutside, SameChans, SameTimers, SameMem]

/-- `SchedAdd` with a free slot: what it writes. -/
theorem schedAdd_armed {e : Nat} {s : State} (d v : BitVec 32)
    (h : (keptAlarms e s).length < s.cfg.schedCapacity) :
    (schedAdd e d v s).alarms = keptAlarms e s ++ [⟨s.nextAlarmId, e, s.now + d.toNat, false⟩] ∧
      (schedAdd e d v s).event e = ⟨some s.nextAlarmId, v⟩ ∧ (schedAdd e d v s).nextAlarmId = s.nextAlarmId + 1 ∧
      (schedAdd e d v s).emitted = s.emitted := by
  obtain ⟨-, ha, hev, hid, hem⟩ | ⟨hfull, -⟩ := schedAdd_cases e d v s
  · exact ⟨ha, (hev e).trans (if_pos rfl), hid, hem⟩
  · omega

/-- `SchedAdd` on a full table: what it writes. -/
theorem schedAdd_rejected {e : Nat} {s : State} (d v : BitVec 32)
    (h : s.cfg.schedCapacity ≤ (keptAlarms e s).length) :
    (schedAdd e d v s).alarms = keptAlarms e s ∧
      (schedAdd e d v s).event e = { s.event e with pending := none } ∧
      (schedAdd e d v s).nextAlarmId = s.nextAlarmId ∧
      (schedAdd e d v s).emitted = s.emitted ++ [.log .schedulerTableFull] := by
  obtain ⟨hroom, -⟩ | ⟨-, ha, hev, hid, hem⟩ := schedAdd_cases e d v s
  · omega
  · exact ⟨ha, (hev e).trans (if_pos rfl), hid, hem⟩

/-- Settles O41: the two cases of `SchedAdd`. -/
theorem evAddArmsTheEventOrIsRejected : Obligations.EvAddArmsTheEventOrIsRejected := by
  intro e delay value s h3 he
  exact ⟨_, exec_evAdd h3 he delay value, rfl, schedAdd_armed _ _, schedAdd_rejected _ _, schedAdd_only _ _ _ s⟩

@[simp] theorem State.done_done (s : State) : s.done.done = s.done := rfl

/-- Settles O42: the event is inactive after the first removal, so the second finds nothing to remove. -/
theorem evRemoveCancelsAndIsIdempotent : Obligations.EvRemoveCancelsAndIsIdempotent := by
  intro e s h3 he
  obtain ⟨hother, hnow, houtside, hchans, hg, htimers, hdma, hfifo, hmem⟩ := schedRemove_only e.toNat s
  have hself : (schedRemove e.toNat s).event e.toNat = { s.event e.toNat with pending := none } := by
    rw [schedRemove_event, if_pos rfl]
  have hagain : schedRemove e.toNat (schedRemove e.toNat s).done = (schedRemove e.toNat s).done :=
    schedRemove_of_inactive (by simp [schedRemove_pending])
  refine ⟨_, exec_evRemove h3 he, ⟨rfl, by simp⟩, by simp [schedRemove_alarms], hself, hother, hnow, by simp, houtside,
    hchans, hg, htimers, hdma, hfifo, hmem, ?_⟩
  rw [exec_evRemove h3 (by simpa using he), hagain, State.done_done]

/-! #### The return from a handler (R108, R249) -/

/-- An entry that is not its event's pending alarm is dropped, whatever the value. -/
theorem handlerReturn_of_stale {a : Alarm} {s : State} (h : s.pending a.ev ≠ some a.id) (r : BitVec 32) :
    handlerReturn a r s = { s with alarms := s.alarms.filter (fun b => b.id != a.id) } :=
  if_pos h

/-- A return of 0 drops the pending alarm and deactivates its event. -/
theorem handlerReturn_zero {a : Alarm} {s : State} (h : s.pending a.ev = some a.id) :
    handlerReturn a 0 s =
        { s with alarms := s.alarms.filter (fun b => b.id != a.id), events := (handlerReturn a 0 s).events } ∧
      (handlerReturn a 0 s).event a.ev = { s.event a.ev with pending := none } ∧
      SameEventsBut a.ev s (handlerReturn a 0 s) := by
  have hdrop : handlerReturn a 0 s = (s.setPending a.ev none).dropAlarm a.id := by
    rw [handlerReturn, if_neg (not_not.mpr h), if_pos rfl]
  refine ⟨by rw [hdrop]; rfl, ?_, fun k hk => ?_⟩
  · rw [handlerReturn_event, if_pos ⟨rfl, h, rfl⟩]
  · rw [handlerReturn_event, if_neg fun ⟨hev, _⟩ => hk hev]

/-- Any other return re-arms the pending alarm that long after its intended time. -/
theorem handlerReturn_rearm {a : Alarm} {s : State} (h : s.pending a.ev = some a.id) {r : BitVec 32} (hr : r ≠ 0) :
    handlerReturn a r s = { s with
      alarms := s.alarms.map (fun b =>
        if b.id = a.id then { b with due := a.due + r.toNat, expired := false } else b) } := by
  rw [handlerReturn, if_neg (not_not.mpr h), if_neg hr]
  rfl

/-! #### The dispatch (R108, R109, R248) -/

/-- R248: a stale entry is dropped without its handler. -/
theorem handlerEntry_of_stale {a : Alarm} {s : State} (h : s.pending a.ev ≠ some a.id) :
    handlerEntry a s = { s with alarms := s.alarms.filter (fun b => b.id != a.id) } :=
  if_pos h

theorem handlerEntry_of_pending {a : Alarm} {s : State} (h : s.pending a.ev = some a.id) :
    handlerEntry a s =
      handlerReturn a (runHandler a.ev (s.event a.ev).value a.due s).2
        (runHandler a.ev (s.event a.ev).value a.due s).1 :=
  if_neg (not_not.mpr h)

/-- Settles O44: a stale entry is dropped without its handler. -/
theorem aStaleFireIsDroppedSilently : Obligations.AStaleFireIsDroppedSilently :=
  fun _ _ ha hx hleast hstale => (alarmDispatch_of_least ha hx hleast).trans (handlerEntry_of_stale hstale)

/-- R101, R109: the block's own events have the DMA engine's and the timers' handlers. -/
theorem runHandler_of_block {e : Nat} (he : e < 3) (v : BitVec 32) (due : Nat) (s : State) :
    runHandler e v due s = if e = 0 then dmaTick s else timerFire v s := by
  unfold runHandler
  split
  · rfl
  · rw [if_pos]
    simp only [evDma] at *
    omega

/-- R101, R109: every other event has an external handler. -/
theorem runHandler_of_external {e : Nat} (he : 3 ≤ e) (v : BitVec 32) (due : Nat) (s : State) :
    runHandler e v due s = extHandler e v due s := by
  rw [runHandler, if_neg (by simp only [evDma]; omega), if_neg (by omega)]

/-- R122, R226: the block's own handlers leave clock, table and events alone. -/
theorem runHandler_sameSched {e : Nat} (he : e < 3) (v : BitVec 32) (due : Nat) (s : State) :
    SameSched s (runHandler e v due s).1 := by
  rw [runHandler_of_block he]
  split <;> simp [SameSched]

/-- Settles O60: the handler leaves table and events alone, so its value returns into the entry it was entered with. -/
theorem aDispatchRunsTheHandlerOfTheBlocksEvent : Obligations.ADispatchRunsTheHandlerOfTheBlocksEvent := by
  intro s a ha hx hleast hp hblock
  have hdispatch := (alarmDispatch_of_least ha hx hleast).trans (handlerEntry_of_pending hp)
  have hsched := runHandler_sameSched hblock (s.event a.ev).value a.due s
  rw [runHandler_of_block hblock] at hdispatch hsched
  intro h t
  change t = handlerReturn a h.2 h.1 at hdispatch
  change SameSched s h.1 at hsched
  clear_value h t
  obtain ⟨-, halarms, -, hevent⟩ := id hsched
  have hp' : h.1.pending a.ev = some a.id := by rw [State.pending, hevent, ← State.pending, hp]
  refine ⟨hsched, fun hr => ?_, fun hr => ?_⟩
  · obtain ⟨heq, hself, hother⟩ := handlerReturn_zero hp'
    rw [hr] at hdispatch
    rw [← hdispatch, halarms] at heq
    rw [← hdispatch, hevent] at hself
    exact ⟨heq, hself, fun k hk => by rw [hdispatch, hother k hk, hevent]⟩
  · rw [hdispatch, handlerReturn_rearm hp' hr, halarms]

/-- R109: the handler of an external event whose answer is supplied. -/
theorem extHandler_of_supplied {s : State} {calls : List ClientCall} {r : BitVec 32} {rest : List ExtAnswer}
    (h : s.env.extAnswers = ⟨calls, r⟩ :: rest) (e : Nat) (v : BitVec 32) (due : Nat) :
    extHandler e v due s =
      (calls.foldl (fun x c => clientCall c x)
        { s with env := { s.env with extAnswers := rest }, emitted := s.emitted ++ [.extFire e v due] }, r) := by
  have hdraw : drawExtAnswer (s.emit (.extFire e v due)) =
      (⟨calls, r⟩,
        { s with env := { s.env with extAnswers := rest }, emitted := s.emitted ++ [.extFire e v due] }) := by
    simp only [drawExtAnswer, State.emit_env, h]
    rfl
  rw [extHandler, hdraw]

/-- R108, R109: the pending alarm of an external event dispatched, with a supplied answer. -/
theorem handlerEntry_of_supplied {s : State} {a : Alarm} {calls : List ClientCall} {r : BitVec 32}
    {rest : List ExtAnswer} (hp : s.pending a.ev = some a.id) (hext : 3 ≤ a.ev)
    (h : s.env.extAnswers = ⟨calls, r⟩ :: rest) :
    handlerEntry a s = handlerReturn a r (calls.foldl (fun x c => clientCall c x)
      { s with
        env := { s.env with extAnswers := rest }
        emitted := s.emitted ++ [.extFire a.ev (s.event a.ev).value a.due] }) := by
  rw [handlerEntry_of_pending hp, runHandler_of_external hext, extHandler_of_supplied h]

/-- What is kept of a table when an event is removed loses its pending alarm with that alarm's drop. -/
theorem keptAlarms_drop {e id : Nat} {s : State} (hp : s.pending e = some id) :
    (keptAlarms e s).filter (fun b => b.id != id) = s.alarms.filter (fun b => b.id != id) := by
  rw [keptAlarms, List.filter_filter]
  refine List.filter_congr fun b _ => ?_
  by_cases hb : b.id = id
  · simp [hb]
  · simp [hp, Ne.symm hb]

/-- Settles O45: the calls happen before the return, which then looks at the event as they left it. -/
theorem anExternalFireReturnsByItsValue : Obligations.AnExternalFireReturnsByItsValue := by
  intro s a calls r rest ha hx hleast hp hext henv fired u t
  have hdispatch : t = handlerReturn a r u :=
    (alarmDispatch_of_least ha hx hleast).trans (handlerEntry_of_supplied hp hext henv)
  have hdropped : u.pending a.ev ≠ some a.id → t = { u with alarms := u.alarms.filter (fun b => b.id != a.id) } :=
    fun hstale => hdispatch.trans (handlerReturn_of_stale hstale r)
  refine ⟨?_, hdropped, fun hp' hr => ?_, fun hp' hr => ?_, fun hcalls he => ?_, fun d v hcalls he hid hroom => ?_⟩
  · rintro rfl
    exact ⟨hp, rfl, rfl⟩
  · rw [hdispatch, hr]
    exact handlerReturn_zero hp'
  · rw [hdispatch, handlerReturn_rearm hp' hr]
  · have hu : u = schedRemove a.ev fired := by
      simp only [u, hcalls, List.foldl_cons, List.foldl_nil]
      rw [clientCall_remove, if_pos ⟨hext, he⟩]
    rw [hdropped (by rw [hu, schedRemove_pending, if_pos rfl]; simp)]
    refine ⟨?_, ?_⟩
    · change u.alarms.filter _ = _
      rw [hu, schedRemove_alarms]
      exact keptAlarms_drop (s := fired) hp
    · change u.event a.ev = _
      rw [hu, schedRemove_event, if_pos rfl]
      rfl
  · have hu : u = schedAdd a.ev d v fired := by
      simp only [u, hcalls, List.foldl_cons, List.foldl_nil]
      rw [clientCall_add, if_pos ⟨hext, he⟩]
    obtain ⟨-, halarms, hevent, -⟩ := schedAdd_frame_of_room (s := fired) d v hroom
    have hfresh : s.nextAlarmId ≠ a.id := by omega
    have hstale : u.pending a.ev ≠ some a.id := by
      rw [hu, State.pending, hevent]
      simpa using hfresh
    rw [hdropped hstale]
    refine ⟨?_, ?_⟩
    · change u.alarms.filter _ = _
      rw [hu, halarms, List.filter_append, keptAlarms_drop (s := fired) hp]
      simp [fired, hfresh]
    · change u.event a.ev = _
      rw [hu, hevent]

/-! #### Late fires (R106, R107, R110) -/

/-- R110: one late fire of an external event alone in the table, answered with no call and a period. -/
theorem lateFire_alone {s : State} {id e due dt : Nat} {r : BitVec 32} {rest : List ExtAnswer}
    (ha : s.alarms = [⟨id, e, due, false⟩]) (hp : s.pending e = some id) (hext : 3 ≤ e)
    (henv : s.env.extAnswers = ⟨[], r⟩ :: rest) (hr : r ≠ 0) (hdue : due ≤ s.now + dt) :
    alarmDispatch (alarmExpire id { s with now := s.now + dt }) =
      { s with
        now := s.now + dt, alarms := [⟨id, e, due + r.toNat, false⟩], env := { s.env with extAnswers := rest }
        emitted := s.emitted ++ [.extFire e (s.event e).value due] } := by
  have hexpired : (alarmExpire id { s with now := s.now + dt }).alarms = [⟨id, e, due, true⟩] := by
    simp [ha, hdue]
  have hentry : alarmDispatch (alarmExpire id { s with now := s.now + dt }) = handlerEntry ⟨id, e, due, true⟩ _ :=
    alarmDispatch_of_least (by rw [hexpired]; exact List.mem_singleton_self _) rfl
      fun b hb _ hne => absurd (List.mem_singleton.mp (hexpired ▸ hb)) hne
  have hreturn := handlerEntry_of_supplied (s := alarmExpire id { s with now := s.now + dt }) (a := ⟨id, e, due, true⟩)
    hp hext henv
  rw [hentry, hreturn, List.foldl_nil, handlerReturn_rearm hp hr, hexpired]
  simp [alarmExpire, State.event]

/-- One late fire, then the others. -/
theorem lateFires_cons (id dt : Nat) (l : List Nat) (s : State) :
    lateFires id (dt :: l) s = lateFires id l (alarmDispatch (alarmExpire id { s with now := s.now + dt })) := rfl

/-- Settles O46, by induction on the fires: each leaves the premise for those after it, at the time it re-armed for. -/
theorem lateFiresDoNotDrift : Obligations.LateFiresDoNotDrift := by
  intro ps
  induction ps with
  | nil =>
    intro s id e due rest ha hp _ _ _ _
    simp [lateFires, ha, hp]
  | cons p ps ih =>
    obtain ⟨dt, r⟩ := p
    intro s id e due rest ha hp hext henv hr hlate
    have hfire := lateFire_alone ha hp hext henv (hr (dt, r) List.mem_cons_self)
      (by simpa using hlate 0 (Nat.succ_pos _))
    obtain ⟨halarms, hemitted, hpend, hnow⟩ := ih
      { s with
        now := s.now + dt, alarms := [⟨id, e, due + r.toNat, false⟩]
        env := { s.env with extAnswers := ps.map (fun p => ⟨[], p.2⟩) ++ rest }
        emitted := s.emitted ++ [.extFire e (s.event e).value due] }
      id e (due + r.toNat) rest rfl hp hext rfl (fun p hm => hr p (List.mem_cons_of_mem _ hm)) fun k hk => by
        simpa [Nat.add_assoc] using hlate (k + 1) (Nat.succ_lt_succ hk)
    intro t
    have ht : t = _ := (lateFires_cons id dt _ s).trans (congrArg _ hfire)
    rw [ht]
    refine ⟨halarms.trans ?_, hemitted.trans ?_, hpend, hnow.trans ?_⟩
    · rw [List.map_cons, List.sum_cons, Nat.add_assoc]
    · rw [List.length_cons, List.range_succ_eq_map]
      simp [State.event, Nat.add_assoc]
    · rw [List.map_cons, List.sum_cons, Nat.add_assoc]

/-! #### `WAIT` with nothing due (R111) -/

theorem exec_wait (us : BitVec 48) (s : State) : exec (.wait us) s = .next (waitUntil (s.now + us.toNat) s).done := rfl

/-- With nothing to serve the loop only sets the clock, whatever its bound. -/
theorem waitLoop_of_none {target : Nat} {s : State} (h : waitNext target s = none) (n : Nat) :
    waitLoop target n s = { s with now := target } := by
  cases n <;> rw [waitLoop, h]

/-- Settles O47: nothing is due, so the loop only sets the clock. -/
theorem waitWithNothingDueOnlyMovesTheClock : Obligations.WaitWithNothingDueOnlyMovesTheClock := by
  intro us s h
  rw [exec_wait, waitUntil, waitLoop_of_none (waitNext_eq_none.mpr h)]
  rfl

/-! #### The scheduler beside the timers and the DMA engine

`SchedAdd` and `SchedRemove` neither read nor write a timer or the engine, so a write to one of these may be done before
or after them. -/

/-- The DMA engine rewritten. -/
def State.setDma (d : Dma) (s : State) : State := { s with dma := d }

theorem schedRemove_setDma (e : Nat) (d : Dma) (s : State) :
    schedRemove e (s.setDma d) = (schedRemove e s).setDma d := by
  have hp : (s.setDma d).pending e = s.pending e := rfl
  unfold schedRemove
  rw [hp]
  split <;> rfl

theorem schedAdd_setDma (e : Nat) (us v : BitVec 32) (d : Dma) (s : State) :
    schedAdd e us v (s.setDma d) = (schedAdd e us v s).setDma d := by
  rcases Nat.lt_or_ge (keptAlarms e s).length s.cfg.schedCapacity with h | h
  · rw [schedAdd_of_room us v h, schedAdd_of_room (s := s.setDma d) us v h, schedRemove_setDma]; rfl
  · rw [schedAdd_of_full us v h, schedAdd_of_full (s := s.setDma d) us v h, schedRemove_setDma]; rfl

@[simp] theorem keptAlarms_setTmr (e : Nat) (t : BitVec 1) (x : Timer) (s : State) :
    keptAlarms e (s.setTmr t x) = keptAlarms e s := by simp [keptAlarms]

theorem schedRemove_setTmr (e : Nat) (t : BitVec 1) (x : Timer) (s : State) :
    schedRemove e (s.setTmr t x) = (schedRemove e s).setTmr t x := by
  unfold schedRemove
  rw [State.setTmr_pending]
  split
  · rfl
  · unfold State.setTmr
    split <;> rfl

theorem schedAdd_setTmr (e : Nat) (us v : BitVec 32) (t : BitVec 1) (x : Timer) (s : State) :
    schedAdd e us v (s.setTmr t x) = (schedAdd e us v s).setTmr t x := by
  rcases Nat.lt_or_ge (keptAlarms e s).length s.cfg.schedCapacity with h | h
  · rw [schedAdd_of_room us v h, schedAdd_of_room us v (by simpa using h), schedRemove_setTmr]
    unfold State.setTmr
    split <;> rfl
  · rw [schedAdd_of_full us v h, schedAdd_of_full us v (by simpa using h), schedRemove_setTmr]
    unfold State.setTmr
    split <;> rfl

theorem State.setTmr_setTmr (t : BitVec 1) (x y : Timer) (s : State) :
    (s.setTmr t x).setTmr t y = s.setTmr t y := by
  unfold State.setTmr
  split <;> rfl

/-- Two cases of `SchedAdd`, told apart by whether it left its event active. -/
theorem schedAdd_pending_eq_none {e : Nat} {d v : BitVec 32} {s : State} :
    (schedAdd e d v s).pending e = none ↔ s.cfg.schedCapacity ≤ (keptAlarms e s).length := by
  rw [schedAdd_pending_self]
  split <;> simp <;> omega

/-! #### The timers started and stopped by `TMR_CFG` (R225) -/

/-- R225: a running timer is left alone. -/
theorem startTimer_of_running {t : BitVec 1} {s : State} (h : (s.tmr t).running = true) : startTimer t s = s :=
  if_pos h

/-- R225: a stopped timer is armed, and runs unless the table is full. -/
theorem startTimer_of_stopped {t : BitVec 1} {s : State} (h : (s.tmr t).running = false) :
    startTimer t s =
      (schedAdd (evTimer t) (s.tmr t).delay (t.setWidth 32) s).setTmr t
        { s.tmr t with running := decide ((keptAlarms (evTimer t) s).length < s.cfg.schedCapacity) } := by
  unfold startTimer
  dsimp only
  rw [if_neg (by simp [h]), schedAdd_setTmr, State.setTmr_pending, State.tmr_setTmr_self]
  split
  · next hp =>
    rw [schedAdd_pending_eq_none] at hp
    rw [State.setTmr_setTmr, decide_eq_false (Nat.not_lt.mpr hp)]
  · next hp =>
    rw [schedAdd_pending_eq_none] at hp
    rw [decide_eq_true (Nat.not_le.mp hp)]

/-- R225: a stopped timer's alarm is removed. -/
theorem stopTimer_eq (t : BitVec 1) (s : State) :
    stopTimer t s = (schedRemove (evTimer t) s).setTmr t { s.tmr t with running := false } :=
  schedRemove_setTmr ..

/-- The timer `TMR_CFG` stores before it starts or stops it (R225). -/
def Timer.configured (x : Timer) (delay : BitVec 32) (reload : BitVec 8) (irq masked : Bool) : Timer :=
  { x with reload := reload, raiseIrq := irq, masked := masked, delay := delay }

/-- R225: the delay is not cut to its field (log 18). -/
theorem toNat_timerDelay {c : Config} (h : c.WF) (t : BitVec 1) (reload : BitVec 8) :
    (timerDelay c t reload).toNat = (256 - reload.toNat) * timerUnit c t := by
  obtain ⟨-, hlt⟩ := timerUnit_bounds_of_wf h t
  have hle : (256 - reload.toNat) * timerUnit c t ≤ 256 * timerUnit c t := Nat.mul_le_mul_right _ (by omega)
  exact Nat.mod_eq_of_lt (by omega)

section
variable {t : BitVec 1} {x : Timer} {s : State}

/-- R225: a running timer, configured and started again, is only configured. -/
theorem startTimer_setTmr_of_running (h : x.running = true) : startTimer t (s.setTmr t x) = s.setTmr t x :=
  startTimer_of_running (by rwa [State.tmr_setTmr_self])

/-- R225: a stopped timer, configured and started. -/
theorem startTimer_setTmr_of_stopped (h : x.running = false) :
    startTimer t (s.setTmr t x) =
      (schedAdd (evTimer t) x.delay (t.setWidth 32) s).setTmr t
        { x with running := decide ((keptAlarms (evTimer t) s).length < s.cfg.schedCapacity) } := by
  rw [startTimer_of_stopped (by rwa [State.tmr_setTmr_self]), State.tmr_setTmr_self, keptAlarms_setTmr,
    State.setTmr_cfg, schedAdd_setTmr, State.setTmr_setTmr]

/-- R225: a timer configured and stopped. -/
theorem stopTimer_setTmr : stopTimer t (s.setTmr t x) =
    (schedRemove (evTimer t) s).setTmr t { x with running := false } := by
  rw [stopTimer_eq, State.tmr_setTmr_self, schedRemove_setTmr, State.setTmr_setTmr]

/-- The last steps of a write command whose answer updates the interrupt line. -/
theorem next_updateIrq_congr {u v : State} (h : u = v) :
    (Outcome.next (updateIrq u).done : Outcome State Fault Refusal) = .next (updateIrq v).done := by rw [h]

section
variable (t : BitVec 1) (reload : BitVec 8) (irq masked : Bool) (s : State)

theorem exec_tmrCfg_stop :
    exec (.tmrCfg t reload irq masked false) s = .next (updateIrq ((schedRemove (evTimer t) s).setTmr t
      { (s.tmr t).configured (timerDelay s.cfg t reload) reload irq masked with running := false })).done :=
  next_updateIrq_congr stopTimer_setTmr

theorem exec_tmrCfg_running (h : (s.tmr t).running = true) :
    exec (.tmrCfg t reload irq masked true) s = .next (updateIrq (s.setTmr t
      ((s.tmr t).configured (timerDelay s.cfg t reload) reload irq masked))).done :=
  next_updateIrq_congr (startTimer_setTmr_of_running h)

theorem exec_tmrCfg_start (h : (s.tmr t).running = false) :
    exec (.tmrCfg t reload irq masked true) s = .next (updateIrq
      ((schedAdd (evTimer t) (timerDelay s.cfg t reload) (t.setWidth 32) s).setTmr t
        { (s.tmr t).configured (timerDelay s.cfg t reload) reload irq masked with
          running := decide ((keptAlarms (evTimer t) s).length < s.cfg.schedCapacity) })).done :=
  next_updateIrq_congr (startTimer_setTmr_of_stopped h)

end

/-- What `TMR_CFG` leaves as it was, whatever it did to the scheduler. -/
theorem SchedOnly.setTmr {e : Nat} {u : State} (h : SchedOnly e s u) (y : Timer) :
    let v := (updateIrq (u.setTmr t y)).done
    (∀ j, j ≠ t → v.tmr j = s.tmr j) ∧ SameEventsBut e s v ∧ v.now = s.now ∧ v.g = irqUpdated s.g ∧
      SameOutside s v ∧ SameChans s v ∧ v.dma = s.dma ∧ v.fifo = s.fifo ∧ SameMem s v := by
  obtain ⟨hother, hnow, houtside, hchans, hg, ⟨h0, h1⟩, hdma, hfifo, hmem⟩ := h
  have htmr : ∀ j, u.tmr j = s.tmr j := fun j => by rw [State.tmr, h0, h1, State.tmr]
  refine ⟨fun j hj => (State.tmr_setTmr_ne y u hj).trans (htmr j), ?_, ?_, ?_, ?_, ?_, ?_, ?_, ?_⟩
  · exact fun k hk => by simpa using hother k hk
  · simpa using hnow
  · simp [hg]
  · simpa [SameOutside] using houtside
  · exact fun i => by simpa using hchans i
  · simpa using hdma
  · simpa using hfifo
  · exact fun a => by simpa using hmem a

/-- What `TMR_CFG` shows of the timer and of what it did to the scheduler. -/
theorem setTmr_shown (u : State) (y : Timer) :
    let v := (updateIrq (u.setTmr t y)).done
    v.tmr t = y ∧ v.alarms = u.alarms ∧ (∀ e, v.event e = u.event e) ∧ v.nextAlarmId = u.nextAlarmId ∧
      v.emitted = u.emitted := by
  simp

end

/-- Settles O38, by the three forms of the command: stopped, running already, started. -/
theorem timerConfigStartsAndStopsTheTimer : Obligations.TimerConfigStartsAndStopsTheTimer := by
  intro k reload irq masked run s hwf x unit d e kept set
  have hdelay : d.toNat = (256 - reload.toNat) * unit := toNat_timerDelay hwf k reload
  have hne : d ≠ 0 := timerDelay_ne_zero hwf k reload
  cases run with
  | false =>
    obtain ⟨htmr, halarms, hevent, hid, hem⟩ := setTmr_shown (t := k) (schedRemove e s) (set false)
    refine ⟨_, exec_tmrCfg_stop k reload irq masked s, rfl, hdelay, hne, fun _ => ⟨htmr, ?_, ?_, ?_, ?_⟩, nofun, nofun,
      nofun, (schedRemove_only e s).setTmr _⟩
    · exact halarms.trans (schedRemove_alarms e s)
    · exact (hevent e).trans ((schedRemove_event e e s).trans (if_pos rfl))
    · exact hid.trans (schedRemove_nextAlarmId e s)
    · exact hem.trans (schedRemove_emitted e s)
  | true =>
    cases hrun : x.running with
    | true =>
      have hset : x.configured d reload irq masked = set true := by
        rw [← hrun]; rfl
      obtain ⟨htmr, halarms, hevent, hid, hem⟩ := setTmr_shown (t := k) s (set true)
      exact ⟨_, hset ▸ exec_tmrCfg_running k reload irq masked s hrun, rfl, hdelay, hne, nofun,
        fun _ _ => ⟨htmr, halarms, hevent e, hid, hem⟩, nofun, nofun, (SchedOnly.refl e s).setTmr _⟩
    | false =>
      obtain ⟨htmr, halarms, hevent, hid, hem⟩ := setTmr_shown (t := k) (schedAdd e d (k.setWidth 32) s)
        (set (decide (kept.length < s.cfg.schedCapacity)))
      refine ⟨_, exec_tmrCfg_start k reload irq masked s hrun, rfl, hdelay, hne, nofun, nofun, fun _ _ hroom => ?_,
        fun _ _ hfull => ?_, (schedAdd_only e d _ s).setTmr _⟩
      · obtain ⟨ha, hev, hi, hm⟩ := schedAdd_armed d (k.setWidth 32) hroom
        exact ⟨htmr.trans (congrArg set (decide_eq_true hroom)), halarms.trans ha, (hevent e).trans hev, hid.trans hi,
          hem.trans hm⟩
      · obtain ⟨ha, hev, hi, hm⟩ := schedAdd_rejected d (k.setWidth 32) hfull
        exact ⟨htmr.trans (congrArg set (decide_eq_false (Nat.not_lt.mpr hfull))), halarms.trans ha,
          (hevent e).trans hev, hid.trans hi, hem.trans hm⟩

/-! #### The DMA engine started and cancelled by `SET_DMACTL` (R121, R123, R129) -/

/-- The period of a start: the override replaces the one asked for (R121). -/
def dmaPeriod (c : Config) (interval : BitVec 32) : BitVec 32 :=
  if c.dmaIntervalOverride = 0 then interval else c.dmaIntervalOverride

/-- The engine with its setup registers taken, running or not (R121). -/
def Dma.loaded (d : Dma) (total : BitVec 32) (unit : UnitWidth) (us : BitVec 32) (auto running : Bool) : Dma :=
  { d with
    total := total, remaining := total, bytesPerUnit := unit, intervalUs := us, autoInit := auto, running := running }

section
variable {s : State} {total : BitVec 32} {unit : UnitWidth} {interval : BitVec 32} {auto : Bool}

/-- R121: a running engine goes on and the rejection is logged. -/
theorem dmaStart_of_running (h : s.dma.running = true) :
    dmaStart total unit interval auto s = s.emit (.log .dmaAlreadyRunning) :=
  if_pos h

/-- R121: a count or a period of 0 starts nothing. -/
theorem dmaStart_of_zero (h : s.dma.running = false) (hz : total = 0 ∨ dmaPeriod s.cfg interval = 0) :
    dmaStart total unit interval auto s = s := by
  unfold dmaStart
  dsimp only
  rw [if_neg (by simp [h]), ite_not]
  exact if_pos hz

/-- R121: with a count and a period an idle engine takes the setup registers, its tick is armed, and it runs unless the
table is full. -/
theorem dmaStart_of_idle (h : s.dma.running = false) (ht : total ≠ 0) (hp : dmaPeriod s.cfg interval ≠ 0) :
    dmaStart total unit interval auto s =
      (schedAdd evDma (dmaPeriod s.cfg interval) 0 s).setDma
        (s.dma.loaded total unit (dmaPeriod s.cfg interval) auto
          (decide ((keptAlarms evDma s).length < s.cfg.schedCapacity))) := by
  have hloaded : schedAdd evDma (dmaPeriod s.cfg interval) 0
      { s with dma := s.dma.loaded total unit (dmaPeriod s.cfg interval) auto true } =
        (schedAdd evDma (dmaPeriod s.cfg interval) 0 s).setDma _ := schedAdd_setDma ..
  have hstart : dmaStart total unit interval auto s =
      if total = 0 ∨ dmaPeriod s.cfg interval = 0 then s
      else
        let armed := schedAdd evDma (dmaPeriod s.cfg interval) 0
          { s with dma := s.dma.loaded total unit (dmaPeriod s.cfg interval) auto true }
        if armed.pending evDma = none then armed.setDma { armed.dma with running := false } else armed := by
    unfold dmaStart
    dsimp only
    rw [if_neg (by simp [h]), ite_not]
    rfl
  rw [hstart, if_neg (not_or.mpr ⟨ht, hp⟩), hloaded]
  dsimp only
  split
  · next hnone =>
    have hfull := schedAdd_pending_eq_none.mp hnone
    rw [decide_eq_false (Nat.not_lt.mpr hfull)]
    rfl
  · next hsome =>
    have hroom := Nat.not_le.mp (mt schedAdd_pending_eq_none.mpr hsome)
    rw [decide_eq_true hroom]

/-- R123: a cancelled engine stops and its event is removed. -/
theorem dmaCancel_eq : dmaCancel s = (schedRemove evDma s).setDma { s.dma with running := false, xfer := .idle } := by
  rw [dmaCancel, schedRemove_dma]
  rfl

end

section
variable (v : BitVec 8) (s : State)

/-- R129: the control byte stored, `TC` kept. -/
def State.storeDmaControl : State := s.onG (fun g => { g with dmaControl := dmaSetByte g.dmaControl v })

/-- The engine asked for by `SET_DMACTL` with `ENABLE`. -/
abbrev State.enabledDma (running : Bool) : Dma :=
  s.dma.loaded s.g.dmaCfgTotal s.g.dmaCfgUnit (dmaPeriod s.cfg s.g.dmaCfgInterval) s.g.dmaCfgAuto running

variable {v s}

theorem exec_setDmactl_disable (h : v.getLsbD 0 = false) :
    exec (.setDmactl v) s = .next (updateIrq ((schedRemove evDma (s.storeDmaControl v)).setDma
      { s.dma with running := false, xfer := .idle })).done :=
  next_updateIrq_congr ((if_neg (Bool.eq_false_iff.mp h)).trans dmaCancel_eq)

theorem exec_setDmactl_enable (h : v.getLsbD 0 = true) :
    exec (.setDmactl v) s = .next (updateIrq (dmaStart s.g.dmaCfgTotal s.g.dmaCfgUnit s.g.dmaCfgInterval
      s.g.dmaCfgAuto (s.storeDmaControl v))).done :=
  next_updateIrq_congr (if_pos h)

theorem exec_setDmactl_start (h : v.getLsbD 0 = true) (hidle : s.dma.running = false) (ht : s.g.dmaCfgTotal ≠ 0)
    (hp : dmaPeriod s.cfg s.g.dmaCfgInterval ≠ 0) :
    exec (.setDmactl v) s = .next (updateIrq
      ((schedAdd evDma (dmaPeriod s.cfg s.g.dmaCfgInterval) 0 (s.storeDmaControl v)).setDma
        (s.enabledDma (decide ((keptAlarms evDma s).length < s.cfg.schedCapacity))))).done :=
  (exec_setDmactl_enable h).trans (next_updateIrq_congr (dmaStart_of_idle (s := s.storeDmaControl v) hidle ht hp))

/-- What `SET_DMACTL` leaves as it was, whatever it did to the scheduler and to the engine. -/
theorem SchedOnly.setDma {e : Nat} {u : State} (h : SchedOnly e (s.storeDmaControl v) u) (d : Dma) :
    let t := (updateIrq (u.setDma d)).done
    t.g = irqUpdated { s.g with dmaControl := s.g.dmaControl.extractLsb' 8 1 ++ v } ∧
      SameEventsBut e s t ∧ t.now = s.now ∧ SameOutside s t ∧ SameChans s t ∧ SameTimers s t ∧ t.fifo = s.fifo ∧
      SameMem s t := by
  obtain ⟨hother, hnow, houtside, hchans, hg, htimers, -, hfifo, hmem⟩ := h
  exact ⟨congrArg irqUpdated hg, hother, hnow, houtside, hchans, htimers, hfifo, hmem⟩

end

/-- Settles O50: the start of an idle engine with a free slot. -/
theorem enableStartsAnIdleEngine : Obligations.EnableStartsAnIdleEngine := by
  intro v s us kept henable hidle htotal hperiod hroom
  have hexec := exec_setDmactl_start henable hidle htotal hperiod
  rw [decide_eq_true hroom] at hexec
  obtain ⟨halarms, hevent, hid, hem⟩ := schedAdd_armed (s := s.storeDmaControl v) us 0 hroom
  obtain ⟨hg, hother, hrest⟩ := (schedAdd_only evDma us 0 (s.storeDmaControl v)).setDma (s.enabledDma true)
  exact ⟨_, hexec, ⟨rfl, hem⟩, rfl, halarms, hevent, hid, hother, hg, hrest⟩

/-- Settles O51: the engine cancelled, running already, without count or period, or rejected by a full table. -/
theorem otherDmaControlWritesStartNothing : Obligations.OtherDmaControlWritesStartNothing := by
  intro v s us kept idle
  cases henable : v.getLsbD 0 with
  | false =>
    have hidle : ¬ idle := fun h => Bool.eq_false_iff.mp henable h.1
    obtain ⟨hg, hother, hrest⟩ := (schedRemove_only evDma (s.storeDmaControl v)).setDma
      { s.dma with running := false, xfer := .idle }
    exact ⟨_, exec_setDmactl_disable henable, rfl, hg, nofun, fun h => absurd h hidle, fun h => absurd h hidle,
      fun _ => ⟨rfl, schedRemove_alarms evDma _, (schedRemove_event evDma evDma _).trans (if_pos rfl), hother,
        schedRemove_nextAlarmId evDma _, schedRemove_emitted evDma _⟩, hrest⟩
  | true =>
    cases hrun : s.dma.running with
    | true =>
      have hidle : ¬ idle := fun h => Bool.eq_false_iff.mp h.2 hrun
      obtain ⟨hg, hother, hrest⟩ := (SchedOnly.refl evDma (s.storeDmaControl v)).setDma s.dma
      exact ⟨_, (exec_setDmactl_enable henable).trans (next_updateIrq_congr (dmaStart_of_running hrun)), rfl, hg,
        fun _ _ => ⟨rfl, ⟨rfl, rfl, rfl, fun _ => rfl⟩, rfl⟩, fun h => absurd h hidle, fun h => absurd h hidle, nofun,
        hrest⟩
    | false =>
      by_cases hzero : s.g.dmaCfgTotal = 0 ∨ us = 0
      · obtain ⟨hg, hother, hrest⟩ := (SchedOnly.refl evDma (s.storeDmaControl v)).setDma s.dma
        exact ⟨_, (exec_setDmactl_enable henable).trans (next_updateIrq_congr (dmaStart_of_zero hrun hzero)), rfl, hg,
          nofun, fun _ _ => ⟨rfl, ⟨rfl, rfl, rfl, fun _ => rfl⟩, rfl⟩,
          fun _ ht hp => absurd hzero (not_or.mpr ⟨ht, hp⟩), nofun, hrest⟩
      · obtain ⟨htotal, hperiod⟩ := not_or.mp hzero
        obtain ⟨hg, hother, hrest⟩ := (schedAdd_only evDma us 0 (s.storeDmaControl v)).setDma
          (s.enabledDma (decide (kept.length < s.cfg.schedCapacity)))
        refine ⟨_, exec_setDmactl_start henable hrun htotal hperiod, rfl, hg, nofun, fun _ hz => absurd hz hzero,
          fun _ _ _ hfull => ?_, nofun, hrest⟩
        obtain ⟨halarms, hevent, hid, hem⟩ := schedAdd_rejected (s := s.storeDmaControl v) us 0 hfull
        exact ⟨congrArg s.enabledDma (decide_eq_false (Nat.not_lt.mpr hfull)), halarms, hevent, hother, hid, hem⟩

/-! #### `WAIT` without external events (R111): a round takes at least one off the rounds left -/

/-- The rounds the entries of a table can take (log 9). -/
def roundsLeft (target : Nat) (l : List Alarm) : Nat := (l.map (alarmRounds target)).sum

theorem roundsLeft_le_waitRounds (target : Nat) (s : State) : roundsLeft target s.alarms ≤ waitRounds target s :=
  Nat.le_add_right _ _

/-- An entry to serve takes a round. -/
theorem alarmRounds_pos {target : Nat} {a : Alarm} (h : a.expired = true ∨ a.due ≤ target) :
    0 < alarmRounds target a := by
  unfold alarmRounds
  rcases h with h | h
  · rw [if_pos h]; omega
  · rw [if_pos h]; omega

/-- An entry re-armed after its time takes fewer rounds. -/
theorem alarmRounds_rearm_lt {target r : Nat} {a : Alarm} (h : a.expired = true ∨ a.due ≤ target) (hr : 0 < r) :
    alarmRounds target { a with due := a.due + r, expired := false } < alarmRounds target a := by
  unfold alarmRounds
  dsimp only
  by_cases hdue : a.due ≤ target
  · rw [if_pos hdue]
    by_cases hlater : a.due + r ≤ target
    · simp only [if_pos hlater, Bool.false_eq_true, if_false]
      omega
    · simp only [if_neg hlater, Bool.false_eq_true, if_false]
      omega
  · have hlater : ¬ a.due + r ≤ target := by omega
    simp [hdue, hlater, h.resolve_right hdue]

/-- A table has fewer rounds left without an entry to serve. -/
theorem roundsLeft_drop_lt {target : Nat} {l : List Alarm} {a : Alarm} (ha : a ∈ l)
    (h : a.expired = true ∨ a.due ≤ target) :
    roundsLeft target (l.filter (fun b => b.id != a.id)) < roundsLeft target l := by
  have hsplit := List.sum_map_filter_add_sum_map_filter_not (fun b : Alarm => b.id != a.id) (alarmRounds target) l
  have hdropped : alarmRounds target a ≤
      ((l.filter (fun b => ¬ (b.id != a.id) = true)).map (alarmRounds target)).sum :=
    List.le_sum_of_mem (List.mem_map_of_mem (by simpa using ha))
  have hpos := alarmRounds_pos h
  simp only [Bool.decide_eq_true] at hsplit
  unfold roundsLeft
  omega

/-- A table has fewer rounds left with an entry to serve re-armed after its time. -/
theorem roundsLeft_rearm_lt {target r : Nat} {l : List Alarm} {a : Alarm} (ha : a ∈ l)
    (huniq : ∀ b ∈ l, b.id = a.id → b = a) (h : a.expired = true ∨ a.due ≤ target) (hr : 0 < r) :
    roundsLeft target (l.map (fun b => if b.id = a.id then { b with due := a.due + r, expired := false } else b)) <
      roundsLeft target l := by
  unfold roundsLeft
  rw [List.map_map]
  refine List.sum_lt_sum _ _ (fun b hb => ?_) ⟨a, ha, ?_⟩
  · by_cases hid : b.id = a.id
    · rw [huniq b hb hid]
      simpa using (alarmRounds_rearm_lt h hr).le
    · simp [hid]
  · simpa using alarmRounds_rearm_lt h hr

/-- No external event has a pending alarm. -/
def State.NoExternal (s : State) : Prop := ∀ e, 3 ≤ e → s.pending e = none

theorem State.NoExternal.lt_of_pending {s : State} (h : s.NoExternal) {e id : Nat} (hp : s.pending e = some id) :
    e < 3 := by
  by_contra hext
  rw [h e (Nat.not_lt.mp hext)] at hp
  cases hp

/-- R108, R122, R226: without external events an entry entered is dropped or re-armed after its time. -/
theorem handlerEntry_alarms {s : State} (h : s.NoExternal) (a : Alarm) :
    (handlerEntry a s).alarms = s.alarms.filter (fun b => b.id != a.id) ∨
      ∃ r, 0 < r ∧ (handlerEntry a s).alarms =
        s.alarms.map (fun b => if b.id = a.id then { b with due := a.due + r, expired := false } else b) := by
  by_cases hp : s.pending a.ev = some a.id
  · have hblock := h.lt_of_pending hp
    rw [handlerEntry_of_pending hp]
    obtain ⟨-, halarms, -, hevent⟩ := runHandler_sameSched hblock (s.event a.ev).value a.due s
    generalize runHandler a.ev (s.event a.ev).value a.due s = ran at *
    have hp' : ran.1.pending a.ev = some a.id := by rw [State.pending, hevent]; exact hp
    by_cases hr : ran.2 = 0
    · obtain ⟨heq, -⟩ := handlerReturn_zero hp'
      rw [hr, heq, halarms]
      exact .inl rfl
    · rw [handlerReturn_rearm hp' hr, halarms]
      exact .inr ⟨ran.2.toNat, Nat.pos_of_ne_zero fun h0 => hr (BitVec.eq_of_toNat_eq h0), rfl⟩
  · rw [handlerEntry_of_stale hp]
    exact .inl rfl

/-- Without external events an entry entered activates none. -/
theorem State.NoExternal.handlerEntry {s : State} (h : s.NoExternal) (a : Alarm) :
    (Machine.handlerEntry a s).NoExternal := by
  intro e he
  by_cases hp : s.pending a.ev = some a.id
  · have hblock := h.lt_of_pending hp
    obtain ⟨-, -, -, hevent⟩ := runHandler_sameSched hblock (s.event a.ev).value a.due s
    rw [handlerEntry_of_pending hp, State.pending, handlerReturn_event, if_neg (by omega), hevent]
    exact h e he
  · rw [handlerEntry_of_stale hp]
    exact h e he

/-- R107, R108, R111: a round of `WAIT` enters the handler of the entry it serves. -/
theorem waitRound_eq_handlerEntry {target : Nat} {s : State} (hs : s.SchedOk) {a : Alarm}
    (h : waitNext target s = some a) :
    waitRound a s =
      handlerEntry { a with expired := true } (alarmExpire a.id { s with now := max s.now a.due }) := by
  obtain ⟨ha, -, hmin⟩ := waitNext_spec h
  have hdue : a.due ≤ max s.now a.due := Nat.le_max_right ..
  refine alarmDispatch_of_least ?_ rfl fun b hb hx hne => ?_
  · exact List.mem_map.mpr ⟨a, ha, if_pos ⟨rfl, hdue⟩⟩
  · obtain ⟨c, hc, rfl⟩ := List.mem_map.mp hb
    by_cases hid : c.id = a.id
    · obtain rfl := hs.eq_of_id hc ha hid
      exact absurd (if_pos ⟨rfl, hdue⟩) hne
    · rw [if_neg fun hboth => hid hboth.1] at hx ⊢
      have hc' := hmin c hc (.inl hx)
      rw [Bool.eq_false_iff, Ne, Alarm.before_iff] at hc'
      dsimp only
      omega

/-- An entry expired and then dropped: as if dropped at once. -/
theorem alarmExpire_filter (id : Nat) (s : State) :
    (alarmExpire id s).alarms.filter (fun b => b.id != id) = s.alarms.filter (fun b => b.id != id) := by
  rw [alarmExpire_alarms]
  induction s.alarms with
  | nil => rfl
  | cons b l ih => by_cases hid : b.id = id <;> simp [hid, ih, apply_ite Alarm.id]

/-- An entry expired and then re-armed: as if re-armed at once. -/
theorem alarmExpire_map (id due : Nat) (s : State) :
    (alarmExpire id s).alarms.map (fun b => if b.id = id then { b with due := due, expired := false } else b) =
      s.alarms.map (fun b => if b.id = id then { b with due := due, expired := false } else b) := by
  rw [alarmExpire_alarms, List.map_map]
  refine List.map_congr_left fun b _ => ?_
  by_cases hid : b.id = id
  · by_cases hdue : b.due ≤ s.now <;> simp [hid, hdue]
  · simp [hid]

/-- R111: without external events a round leaves fewer rounds. -/
theorem roundsLeft_waitRound_lt {target : Nat} {s : State} (hs : s.SchedOk) (hno : s.NoExternal) {a : Alarm}
    (h : waitNext target s = some a) : roundsLeft target (waitRound a s).alarms < roundsLeft target s.alarms := by
  obtain ⟨ha, hserved, -⟩ := waitNext_spec h
  have hunique : ∀ b ∈ s.alarms, b.id = a.id → b = a := fun b hb hid => hs.eq_of_id hb ha hid
  rw [waitRound_eq_handlerEntry hs h]
  obtain hal | ⟨r, hr, hal⟩ := handlerEntry_alarms (s := alarmExpire a.id { s with now := max s.now a.due }) hno
    { a with expired := true } <;> rw [hal]
  · rw [alarmExpire_filter]
    exact roundsLeft_drop_lt (a := a) ha hserved
  · rw [alarmExpire_map]
    exact roundsLeft_rearm_lt (a := a) ha hunique hserved hr

/-- A round of `WAIT` keeps the invariant. -/
theorem State.Inv.waitRound {s : State} (h : s.Inv) (a : Alarm) : (waitRound a s).Inv :=
  ((h.atTime (.inl (Nat.le_max_left _ a.due))).expire a.id).alarmDispatch

theorem State.NoExternal.waitRound {target : Nat} {s : State} (hs : s.SchedOk) (hno : s.NoExternal) {a : Alarm}
    (h : waitNext target s = some a) : (waitRound a s).NoExternal := by
  rw [waitRound_eq_handlerEntry hs h]
  exact State.NoExternal.handlerEntry (s := alarmExpire a.id { s with now := max s.now a.due }) hno _

/-- R111: without external events every bound with enough rounds ends the loop alike, leaving nothing presented. -/
theorem waitLoop_of_enough {target : Nat} {s : State} (h : s.Inv) (hno : s.NoExternal) :
    ∃ t : State, t.inbox = s.inbox ∧ ∀ n, roundsLeft target s.alarms ≤ n → waitLoop target n s = t := by
  induction hm : roundsLeft target s.alarms using Nat.strong_induction_on generalizing s with
  | h m ih =>
    cases hw : waitNext target s with
    | none => exact ⟨{ s with now := target }, rfl, fun n _ => waitLoop_of_none hw n⟩
    | some a =>
      have hlt := roundsLeft_waitRound_lt h.sched_ok hno hw
      obtain ⟨t, hin, hend⟩ := ih _ (hm ▸ hlt) (h.waitRound a) (hno.waitRound h.sched_ok hw) rfl
      refine ⟨t, by rw [hin, waitRound_inbox], fun n hn => ?_⟩
      obtain ⟨k, rfl⟩ := Nat.exists_eq_succ_of_ne_zero (n := n) (by omega)
      rw [waitLoop_round hw]
      exact hend k (by omega)

/-- Settles O49: the model's bound has enough rounds, and the loop's other end would leave the inbox longer. -/
theorem waitWithoutExternalEventsEndsItsLoop : Obligations.WaitWithoutExternalEventsEndsItsLoop := by
  intro us s h hno
  refine ⟨_, exec_wait us s, ?_⟩
  obtain ⟨t, hin, hend⟩ := waitLoop_of_enough (target := s.now + us.toNat) h hno
  have ht := hend _ (roundsLeft_le_waitRounds _ s)
  obtain hended | ⟨hleft, -⟩ := waitLoop_end (s.now + us.toNat) (waitRounds (s.now + us.toNat) s) s
  · exact hended
  · rw [ht, hin] at hleft
    exact absurd hleft.symm (List.cons_ne_self _ _)

/-! #### What a `WAIT` leaves as it was -/

/-- What the rounds of a `WAIT` may write: besides the scheduler and the outputs, what a fire of the block's events
writes. `EV_DMA` and the engine are touched only where `EV_DMA` is pending, device memory only where the engine moves
bytes from the host. -/
structure WaitFrame (s t : State) : Prop where
  chans : SameChans s t
  fifo : t.fifo = s.fifo
  cfg : t.cfg = s.cfg
  g : t.g = { s.g with
    timerIrq := t.g.timerIrq, irqChan := t.g.irqChan, irqLine := t.g.irqLine
    dmaControl := t.g.dmaControl, dmaAddr := t.g.dmaAddr }
  dir : dmaDir t.g.dmaControl = dmaDir s.g.dmaControl
  tmr : ∀ k, t.tmr k = { s.tmr k with reached := (t.tmr k).reached }
  inactive : s.pending evDma = none → t.pending evDma = none
  dma : s.pending evDma = none → t.dma = s.dma
  mem : s.pending evDma = none ∨ dmaDir s.g.dmaControl = true → SameMem s t

theorem WaitFrame.trans {s t u : State} (h : WaitFrame s t) (k : WaitFrame t u) : WaitFrame s u where
  chans i := (k.chans i).trans (h.chans i)
  fifo := k.fifo.trans h.fifo
  cfg := k.cfg.trans h.cfg
  g := k.g.trans (by rw [h.g])
  dir := k.dir.trans h.dir
  tmr j := (k.tmr j).trans (by rw [h.tmr j])
  inactive hp := k.inactive (h.inactive hp)
  dma hp := (k.dma (h.inactive hp)).trans (h.dma hp)
  mem hp a := (k.mem (hp.imp h.inactive h.dir.trans) a).trans (h.mem hp a)

/-- An operation on the scheduler and the outputs alone that does not activate `EV_DMA`. -/
theorem WaitFrame.of_sched {s t : State} (hinactive : s.pending evDma = none → t.pending evDma = none)
    (hcfg : t.cfg = s.cfg := by simp) (hchans : t.chans = s.chans := by simp) (hfifo : t.fifo = s.fifo := by simp)
    (hg : t.g = s.g := by simp) (h0 : t.tmr0 = s.tmr0 := by simp) (h1 : t.tmr1 = s.tmr1 := by simp)
    (hdma : t.dma = s.dma := by simp) (hmem : t.mem = s.mem := by simp) : WaitFrame s t where
  chans i := by rw [State.chan, hchans, State.chan]
  fifo := hfifo
  cfg := hcfg
  g := by rw [hg]
  dir := by rw [hg]
  tmr k := by rw [show t.tmr k = s.tmr k by rw [State.tmr, h0, h1, State.tmr]]
  inactive := hinactive
  dma _ := hdma
  mem _ a := by rw [State.byteAt, hcfg, hmem, State.byteAt]

/-- R109: an external handler's calls reach external events only. -/
theorem clientCall_event_of_block (c : ClientCall) {k : Nat} (hk : k < 3) (s : State) :
    (clientCall c s).event k = s.event k := by
  obtain ⟨e, d, v, -, he, hc⟩ | ⟨e, -, he, hc⟩ | hc := clientCall_cases c s <;> rw [hc]
  · obtain ⟨h3, -⟩ : 3 ≤ e ∧ e < 3 + s.cfg.extEvents := by simpa using he
    exact schedAdd_event_ne d v s (by omega)
  · obtain ⟨h3, -⟩ : 3 ≤ e ∧ e < 3 + s.cfg.extEvents := by simpa using he
    rw [schedRemove_event, if_neg (by omega)]

theorem extHandler_event_of_block (e : Nat) (v : BitVec 32) (due : Nat) {k : Nat} (hk : k < 3) (s : State) :
    (extHandler e v due s).1.event k = s.event k := by
  have hcalls : ∀ (l : List ClientCall) (u : State),
      (l.foldl (fun s c => clientCall c s) u).event k = u.event k := fun l => by
    induction l with
    | nil => exact fun _ => rfl
    | cons c l ih => exact fun u => (ih _).trans (clientCall_event_of_block c hk u)
  exact (hcalls _ _).trans (by simp)

theorem extHandler_waitFrame (e : Nat) (v : BitVec 32) (due : Nat) (s : State) :
    WaitFrame s (extHandler e v due s).1 :=
  .of_sched fun hp => by rw [State.pending, extHandler_event_of_block e v due (by decide)]; exact hp

/-- R226: everything a timer's handler can do: nothing while the timer is stopped; else it marks the timer, perhaps
raises its cause, and brings the line up to date. -/
theorem timerFire_cases (v : BitVec 32) (s : State) :
    (timerFire v s).1 = s ∨
    ∃ (k : BitVec 1) (reached : Bool) (m : BitVec 2), (timerFire v s).1 =
      updateIrq ((s.setTmr k { s.tmr k with reached := reached }).onG (fun g => { g with timerIrq := m })) := by
  unfold timerFire
  dsimp only
  split
  · exact .inl rfl
  · refine .inr ⟨v.extractLsb' 0 1, (s.tmr (v.extractLsb' 0 1)).reached || !(s.tmr (v.extractLsb' 0 1)).masked, ?_⟩
    generalize s.setTmr _ _ = marked
    split
    · exact ⟨raiseTimerCause (v.extractLsb' 0 1) marked.g.timerIrq, rfl⟩
    · exact ⟨marked.g.timerIrq, rfl⟩

theorem timerFire_waitFrame (v : BitVec 32) (s : State) : WaitFrame s (timerFire v s).1 := by
  obtain hs | ⟨k, reached, m, hs⟩ := timerFire_cases v s
  · rw [hs]
    exact .of_sched id
  · exact {
      chans := fun i => by simp
      fifo := by simp
      cfg := by simp
      g := by rw [hs, updateIrq_g, State.onG_g, State.setTmr_g]; rfl
      dir := by rw [hs, updateIrq_g, State.onG_g, State.setTmr_g]; rfl
      tmr := fun j => by
        rw [hs, updateIrq_tmr, State.onG_tmr]
        by_cases hj : j = k
        · rw [hj, State.tmr_setTmr_self]
        · rw [State.tmr_setTmr_ne _ _ hj]
      inactive := by simp
      dma := by simp
      mem := fun _ a => by simp }

/-- R125: a cycle from device memory to the host leaves device memory alone. -/
theorem transferCycle_mem_of_dir {s : State} (h : dmaDir s.g.dmaControl = true) : (transferCycle s).mem = s.mem := by
  unfold transferCycle
  dsimp only
  rw [if_pos h, transferOut_mem]

theorem transferCycle_waitFrame {s : State} (hp : s.pending evDma ≠ none) : WaitFrame s (transferCycle s) where
  chans i := by simp
  fifo := by simp
  cfg := by simp
  g := by rw [transferCycle_g]
  dir := by rw [transferCycle_g]
  tmr k := by simp
  inactive h := absurd h hp
  dma h := absurd h hp
  mem h a := by
    rw [State.byteAt, transferCycle_cfg, transferCycle_mem_of_dir (h.resolve_left hp), State.byteAt]

/-- R120, R124: terminal count leaves the direction of the transfer alone. -/
theorem dmaDir_atTerminalCount (c : BitVec 9) : dmaDir (dmaAtTerminalCount c) = dmaDir c := by
  simp [dmaDir, dmaAtTerminalCount]

/-- The engine counted down, while its event is pending. -/
theorem dmaWrite_waitFrame {s : State} (hp : s.pending evDma ≠ none) (d : Dma) : WaitFrame s { s with dma := d } where
  chans _ := rfl
  fifo := rfl
  cfg := rfl
  g := rfl
  dir := rfl
  tmr _ := rfl
  inactive h := absurd h hp
  dma h := absurd h hp
  mem _ _ := rfl

/-- The engine at terminal count, reloaded or stopped, while its event is pending. -/
theorem terminalCount_waitFrame {s : State} (hp : s.pending evDma ≠ none) (d : Dma) :
    WaitFrame s (updateIrq { s with g := { s.g with dmaControl := dmaAtTerminalCount s.g.dmaControl }, dma := d }) where
  chans _ := rfl
  fifo := rfl
  cfg := rfl
  g := rfl
  dir := dmaDir_atTerminalCount _
  tmr _ := rfl
  inactive h := absurd h hp
  dma h := absurd h hp
  mem _ _ := rfl

theorem dmaTick_waitFrame {s : State} (hp : s.pending evDma ≠ none) : WaitFrame s (dmaTick s).1 := by
  have hmoved := transferCycle_waitFrame hp
  have hp' : (transferCycle s).pending evDma ≠ none := by simpa using hp
  cases hrun : s.dma.running with
  | false =>
    rw [dmaTick, if_pos (by simp [hrun])]
    exact .of_sched id
  | true =>
    obtain ⟨-, ht⟩ | ⟨-, -, ht⟩ | ⟨-, -, ht⟩ := dmaTick_cases hrun <;> rw [ht]
    · exact hmoved.trans (dmaWrite_waitFrame hp' _)
    · exact hmoved.trans (terminalCount_waitFrame hp' _)
    · exact hmoved.trans (terminalCount_waitFrame hp' _)

theorem handlerReturn_waitFrame (a : Alarm) (r : BitVec 32) (s : State) : WaitFrame s (handlerReturn a r s) :=
  .of_sched fun hp => by
    rw [State.pending, handlerReturn_event]
    split
    · rfl
    · exact hp

theorem runHandler_waitFrame {a : Alarm} {s : State} (hp : s.pending a.ev = some a.id) (v : BitVec 32) :
    WaitFrame s (runHandler a.ev v a.due s).1 := by
  by_cases hblock : a.ev < 3
  · rw [runHandler_of_block hblock]
    split
    · next hev => exact dmaTick_waitFrame (by rw [evDma, ← hev, hp]; nofun)
    · exact timerFire_waitFrame v s
  · rw [runHandler_of_external (Nat.not_lt.mp hblock)]
    exact extHandler_waitFrame ..

theorem alarmDispatch_waitFrame (s : State) : WaitFrame s (alarmDispatch s) := by
  obtain ⟨hs, -⟩ | ⟨a, -, -, hs⟩ := alarmDispatch_cases s <;> rw [hs]
  · exact .of_sched id
  by_cases hp : s.pending a.ev = some a.id
  · rw [handlerEntry_of_pending hp]
    exact (runHandler_waitFrame hp _).trans (handlerReturn_waitFrame ..)
  · rw [handlerEntry_of_stale hp]
    exact .of_sched id

theorem waitLoop_waitFrame (target n : Nat) (s : State) : WaitFrame s (waitLoop target n s) :=
  waitLoop_keeps (P := WaitFrame s)
    (fun u a _ h => (h.trans (.of_sched (t := alarmExpire a.id { u with now := max u.now a.due }) id)).trans
      (alarmDispatch_waitFrame _))
    (fun _ _ h => h.trans (.of_sched id)) (fun _ h => h.trans (.of_sched id)) n (.of_sched id)

/-- R111: a `WAIT` goes on from the state its first round leaves as the `WAIT` for the time that remains. -/
theorem exec_wait_round {us : BitVec 48} {s : State} {a : Alarm} (h : s.Inv) (hno : s.NoExternal)
    (hw : waitNext (s.now + us.toNat) s = some a) :
    exec (.wait (BitVec.ofNat 48 (s.now + us.toNat - (waitRound a s).now))) (waitRound a s) = exec (.wait us) s := by
  obtain ⟨ha, hserved, -⟩ := waitNext_spec hw
  have hnow : (waitRound a s).now = max s.now a.due := by simp [waitRound]
  have hdue : max s.now a.due ≤ s.now + us.toNat := by
    have hexpired := h.sched_ok.expired_due a ha
    rcases hserved with hx | hd
    · have := hexpired hx
      omega
    · omega
  have hus := us.isLt
  have hrest : (waitRound a s).now + (BitVec.ofNat 48 (s.now + us.toNat - (waitRound a s).now)).toNat =
      s.now + us.toNat := by
    rw [BitVec.toNat_ofNat, Nat.mod_eq_of_lt (by omega)]
    omega
  obtain ⟨t, -, hend⟩ := waitLoop_of_enough (target := s.now + us.toNat) (h.waitRound a)
    (hno.waitRound h.sched_ok hw)
  have hlt := roundsLeft_waitRound_lt h.sched_ok hno hw
  have hbound := roundsLeft_le_waitRounds (s.now + us.toNat) s
  obtain ⟨n, hn⟩ := Nat.exists_eq_succ_of_ne_zero (n := waitRounds (s.now + us.toNat) s) (by omega)
  rw [exec_wait, exec_wait, hrest, waitUntil, waitUntil, hn, waitLoop_round hw,
    hend _ (roundsLeft_le_waitRounds _ _), hend n (by omega)]

/-- Settles O48: how the loop ends, its first round, and what every round leaves as it was. -/
theorem waitEndsItsLoopOrLeavesTheRestPresented : Obligations.WaitEndsItsLoopOrLeavesTheRestPresented := by
  intro us s target
  have hframe : WaitFrame s (waitUntil target s) := waitLoop_waitFrame target _ s
  refine ⟨_, exec_wait us s, rfl, waitLoop_end target (waitRounds target s) s, fun a ha hserved hleast => ?_,
    hframe.chans, hframe.fifo, hframe.cfg, hframe.g, hframe.tmr, hframe.dma, hframe.mem⟩
  have hw : waitNext target s = some a := waitNext_of_least ha hserved hleast
  have hpos := waitRounds_pos ha hserved
  refine ⟨hpos, ?_, fun h hno => ⟨?_, exec_wait_round h hno hw⟩⟩
  · obtain ⟨n, hn⟩ := Nat.exists_eq_succ_of_ne_zero (Nat.pos_iff_ne_zero.mp hpos)
    change (waitLoop target (waitRounds target s) s).done = _
    rw [hn, waitLoop_round hw]
    rfl
  · simp

end Sys2Proof.Machine

/-! ### The family of `41_dma.md`: the latches and reads of the register file, the transfer cycle, the DMA tick, the
audio FIFO -/

namespace Sys2Proof.Machine

/-! #### Registers latched and read (R126 to R128, R131, R135, R141, R142, R222, R228) -/

/-- A command that writes the register file and the outputs leaves everything else as it was. -/
theorem sameButG_of_write (s : State) (g : Globals) (r : Option Imm) (l : List Emission) :
    SameButG s { s with g := g, result := r, emitted := l } :=
  ⟨⟨rfl, rfl, rfl⟩, fun _ => rfl, ⟨rfl, rfl⟩, rfl, ⟨rfl, rfl, rfl, fun _ => rfl⟩, rfl, fun _ => rfl⟩

/-- A command that rewrites the register file and does nothing else. -/
theorem latch_of_exec {i : Instr} {s : State} {f : Globals → Globals} (h : exec i s = .next (s.onG f).done) :
    ∃ t, exec i s = .next t ∧ Silent s t ∧ SameButG s t ∧ t.g = f s.g :=
  ⟨_, h, ⟨rfl, rfl⟩, sameButG_of_write .., rfl⟩

/-- Settles O28: each of the five commands is one rewrite of the register file. -/
theorem latchWritesStoreOnlyTheirRegister : Obligations.LatchWritesStoreOnlyTheirRegister := by
  intro s
  refine ⟨fun n => ?selCh, fun a => ?memAddr, fun a => ?dmaAddr, fun us => ?dmaInterval,
    fun auto w16 total => ?dmaSetup⟩
  case selCh => exact latch_of_exec (f := fun g => { g with selChannel := n }) rfl
  case memAddr => exact latch_of_exec (f := fun g => { g with memAddr := a }) rfl
  case dmaAddr => exact latch_of_exec (f := fun g => { g with dmaAddr := a }) rfl
  case dmaInterval => exact latch_of_exec (f := fun g => { g with dmaCfgInterval := us }) rfl
  case dmaSetup =>
    exact latch_of_exec (f := fun g =>
      { g with dmaCfgAuto := auto, dmaCfgUnit := if w16 then .two else .one, dmaCfgTotal := total }) rfl

/-- A command that hands a value back and does nothing else. -/
theorem read_of_exec {i : Instr} {s : State} {v : Imm} (h : exec i s = .next (s.ret v)) :
    ∃ t, exec i s = .next t ∧ HandsBack v s t ∧ SameState s t :=
  ⟨_, h, ⟨rfl, rfl⟩, State.ret_sameState v s⟩

/-- Two fields side by side as a number. -/
theorem toNat_append_eq_add {m n : Nat} (hi : BitVec m) (lo : BitVec n) :
    (hi ++ lo).toNat = hi.toNat * 2 ^ n + lo.toNat := by
  rw [BitVec.toNat_append, ← Nat.shiftLeft_add_eq_or_of_lt lo.isLt, Nat.shiftLeft_eq]

/-- R228: the fields of the value `GET_TMR` hands back. -/
theorem timerValue_toNat (x : Timer) :
    (timerValue x).toNat = x.delay.toNat * 2 ^ 16 + x.reached.toNat * 2 ^ 11 + x.running.toNat * 2 ^ 10 +
      x.masked.toNat * 2 ^ 9 + x.raiseIrq.toNat * 2 ^ 8 + x.reload.toNat := by
  simp only [timerValue, toNat_append_eq_add, BitVec.toNat_ofBool, BitVec.toNat_ofNat]
  omega

/-- R135: the fields of the value `GET_FIFO` hands back. -/
theorem setWidth_fifoValue_toNat (f : Fifo) :
    ((fifoValue f).setWidth 48).toNat = (if f.state = .running then 2 ^ 16 else 0) + f.count % 2 ^ 16 := by
  rw [BitVec.toNat_setWidth_of_le (by decide), fifoValue, toNat_append_eq_add, BitVec.toNat_ofNat]
  cases f.state <;> simp

/-- Settles O29: each of the ten commands hands a value back and does nothing else; two of the values are made of
fields. -/
theorem globalReadsHandBackTheirValue : Obligations.GlobalReadsHandBackTheirValue := by
  intro s
  refine ⟨read_of_exec rfl, read_of_exec rfl, read_of_exec rfl, read_of_exec rfl, read_of_exec rfl, read_of_exec rfl,
    read_of_exec (exec_memPeek s), read_of_exec rfl, fun k => ?getTmr, ?getFifo⟩
  case getTmr => exact ⟨_, _, rfl, ⟨rfl, rfl⟩, State.ret_sameState _ s, timerValue_toNat (s.tmr k)⟩
  case getFifo => exact ⟨_, _, rfl, ⟨rfl, rfl⟩, State.ret_sameState _ s, setWidth_fifoValue_toNat s.fifo⟩

/-! #### The DMA control value (R122, R124, R130) -/

/-- R130: the read clears `TC` and no other control bit. -/
theorem dmaClearTc_getLsbD (v : BitVec 9) (k : Nat) :
    (dmaClearTc v).getLsbD k = (v.getLsbD k && decide (k ≠ 8)) := by
  have hmask : (0x0FF#9).getLsbD k = decide (k < 8) := by
    rw [show (0x0FF#9) = BitVec.ofNat 9 (2 ^ 8 - 1) from rfl, BitVec.getLsbD_ofNat, Nat.testBit_two_pow_sub_one,
      ← Bool.decide_and]
    exact decide_eq_decide.mpr (by omega)
  rw [dmaClearTc, BitVec.getLsbD_and, hmask]
  rcases Nat.lt_or_ge k 9 with hk | hk
  · rw [decide_eq_decide.mpr (show k < 8 ↔ k ≠ 8 by omega)]
  · simp [BitVec.getLsbD_of_ge v k hk]

/-- R130: `GET_DMACTL` with its operations written out. -/
theorem exec_getDmactl (s : State) :
    exec .getDmactl s =
      .next ((updateIrq (s.onG fun g => { g with dmaControl := dmaClearTc g.dmaControl })).ret
        (s.g.dmaControl.setWidth 48)) := rfl

/-- Settles O54: the value is read before `TC` is cleared. -/
theorem getDmactlClearsTerminalCount : Obligations.GetDmactlClearsTerminalCount := by
  intro s
  exact ⟨_, exec_getDmactl s, ⟨rfl, rfl⟩, dmaClearTc_getLsbD s.g.dmaControl, rfl, sameButG_of_write ..⟩

/-- R122, R124: terminal count sets `TC`, clears `ENABLE` and leaves every other control bit as it was. -/
theorem dmaAtTerminalCount_getLsbD (v : BitVec 9) (k : Nat) :
    (dmaAtTerminalCount v).getLsbD k = (decide (k = 8) || v.getLsbD k && decide (k ≠ 0)) := by
  rcases Nat.lt_or_ge k 9 with hk | hk
  · rw [dmaAtTerminalCount, BitVec.getLsbD_and, BitVec.getLsbD_or]
    interval_cases k <;> simp
  · rw [BitVec.getLsbD_of_ge _ k hk, BitVec.getLsbD_of_ge v k hk, decide_eq_false (by omega : k ≠ 8)]
    rfl

/-- R216: bit 0 of the effective status is the DMA cause. -/
theorem effectiveIrqStatus_getLsbD_zero (g : Globals) : (effectiveIrqStatus g).getLsbD 0 = statusDma g := by
  rw [effectiveIrqStatus, BitVec.getLsbD_append]
  simp

/-- R216, R217: a DMA cause asserts the line. -/
theorem irqUpdated_irqLine_of_statusDma {g : Globals} (h : statusDma g = true) : (irqUpdated g).irqLine = true := by
  have hne : effectiveIrqStatus g ≠ 0 := fun h0 => by simpa [h0, h] using effectiveIrqStatus_getLsbD_zero g
  exact bne_iff_ne.mpr hne

/-- R122, R124: terminal count raises the DMA cause where `IRQ_EN` is set. -/
theorem statusDma_atTerminalCount {g : Globals} (h : g.dmaControl.getLsbD 2 = true) :
    statusDma { g with dmaControl := dmaAtTerminalCount g.dmaControl } = true := by
  simp [statusDma, dmaTc, dmaIrqEn, dmaAtTerminalCount_getLsbD, h]

/-- R122: a tick of an idle engine does nothing. -/
theorem dmaTick_of_idle {s : State} (h : s.dma.running = false) : dmaTick s = (s, 0) := by
  rw [dmaTick, if_pos (by simp [h])]

/-- R122, R124: the register file after the last unit. -/
def Globals.atTerminalCount (g : Globals) : Globals :=
  irqUpdated { g with dmaControl := dmaAtTerminalCount g.dmaControl }

/-- R122, R124: `TC` is set, `ENABLE` cleared, and the line follows. -/
theorem Globals.atTerminalCount_spec (g : Globals) :
    g.atTerminalCount.dmaControl.getLsbD 8 = true ∧ g.atTerminalCount.dmaControl.getLsbD 0 = false ∧
      (∀ k, 1 ≤ k → k ≤ 7 → g.atTerminalCount.dmaControl.getLsbD k = g.dmaControl.getLsbD k) ∧
      g.atTerminalCount = irqUpdated { g with dmaControl := g.atTerminalCount.dmaControl } ∧
      (g.dmaControl.getLsbD 2 = true → g.atTerminalCount.irqLine = true) := by
  have hbit : ∀ k, g.atTerminalCount.dmaControl.getLsbD k = _ := dmaAtTerminalCount_getLsbD g.dmaControl
  refine ⟨(hbit 8).trans rfl, (hbit 0).trans (by simp), fun k h1 h7 => ?_, rfl,
    fun hirq => irqUpdated_irqLine_of_statusDma (statusDma_atTerminalCount hirq)⟩
  have h8 : k ≠ 8 := by omega
  have h0 : k ≠ 0 := by omega
  simp [hbit, h8, h0]

/-- Settles O53, by the three things a tick of a running engine can do. -/
theorem aDmaTickCountsDownToTerminalCount : Obligations.ADmaTickCountsDownToTerminalCount := by
  intro s moved t r
  refine ⟨dmaTick_of_idle, fun hrun hleft => ?counting, fun hrun hlast => ?terminal⟩
  case counting =>
    obtain ⟨-, ht⟩ | ⟨h0, -⟩ | ⟨h0, -⟩ := dmaTick_cases hrun
    · exact ⟨congrArg Prod.fst ht, congrArg Prod.snd ht⟩
    · exact absurd (sub_eq_zero.mp h0) hleft
    · exact absurd (sub_eq_zero.mp h0) hleft
  case terminal =>
    have hcontrol : (transferCycle s).g.dmaControl = s.g.dmaControl := by rw [transferCycle_g]
    obtain ⟨htc, henable, hothers, hg, hline⟩ := (transferCycle s).g.atTerminalCount_spec
    rw [hcontrol] at hothers hline
    dsimp only [t, r]
    obtain ⟨h0, -⟩ | ⟨-, hauto, ht⟩ | ⟨-, hauto, ht⟩ := dmaTick_cases hrun
    · exact absurd (sub_eq_zero.mpr hlast) h0
    · rw [ht]
      exact ⟨htc, henable, hothers, hg, hline, fun _ => ⟨rfl, rfl⟩, fun h => absurd (hauto.symm.trans h) nofun, rfl⟩
    · rw [ht]
      exact ⟨htc, henable, hothers, hg, hline, fun h => absurd (hauto.symm.trans h) nofun, fun _ => ⟨rfl, rfl⟩, rfl⟩

/-! #### The transfer cycle (R125) -/

/-- R65, R125: the device-memory byte `k` places on from an address. -/
theorem maskAddr_add_ofNat (c : Config) (a : Addr) (k : Nat) :
    maskAddr c (a + BitVec.ofNat 24 k) = (a.toNat + k) % 2 ^ 24 % 2 ^ c.memAddrBits := by
  rw [maskAddr, BitVec.toNat_add, BitVec.toNat_ofNat, Nat.add_mod_mod]

/-- R8, R65: with two bytes of device memory or more the two bytes of a unit lie apart: one address is even. -/
theorem maskAddr_succ_ne {c : Config} (hc : c.WF) (a : Addr) : maskAddr c (a + 1) ≠ maskAddr c a := by
  obtain ⟨⟨hbank, hbits, -⟩, -⟩ := hc
  have heven : 2 ∣ 2 ^ c.memAddrBits := dvd_pow_self 2 (by omega)
  have hsucc := maskAddr_add_ofNat c a 1
  intro h
  have hparity := congrArg (· % 2) (hsucc.symm.trans h)
  simp only [maskAddr, Nat.mod_mod_of_dvd _ heven] at hparity
  omega

/-- R125: a cycle to the host emits the bytes of one unit. -/
theorem transferOut_eq (s : State) :
    transferOut s = s.emit (.dmaOut s.g.dmaAddr
      ((List.range (unitBytes s.dma.bytesPerUnit)).map fun k => s.memRead (s.g.dmaAddr + BitVec.ofNat 24 k))) := by
  unfold transferOut
  dsimp only
  split
  · next h => simp [h, unitBytes]
  · next h => simp [h, unitBytes, List.range_succ]

/-- The state once the host's next bytes are taken, up to those that are left. -/
def State.hostLeft (rest : List Byte) (s : State) : State := { s with env := { s.env with hostBytes := rest } }

theorem drawHostByte_of_cons {s : State} {b : Byte} {rest : List Byte} (h : s.env.hostBytes = b :: rest) :
    drawHostByte s = (b, s.hostLeft rest) := by
  simp only [drawHostByte, h, State.hostLeft]

/-- R125: a cycle of one byte from the host. -/
theorem transferIn_one {s : State} {b : Byte} {rest : List Byte} (hunit : s.dma.bytesPerUnit = .one)
    (hhost : s.env.hostBytes = b :: rest) :
    transferIn s = ((s.hostLeft rest).memWrite s.g.dmaAddr b).emit (.dmaIn s.g.dmaAddr [b]) := by
  simp only [transferIn, hunit, drawHostByte_of_cons hhost]

/-- R125: a cycle of two bytes from the host. -/
theorem transferIn_two {s : State} {b₀ b₁ : Byte} {rest : List Byte} (hunit : s.dma.bytesPerUnit = .two)
    (hhost : s.env.hostBytes = b₀ :: b₁ :: rest) :
    transferIn s =
      (((s.hostLeft rest).memWrite s.g.dmaAddr b₀).memWrite (s.g.dmaAddr + 1) b₁).emit
        (.dmaIn s.g.dmaAddr [b₀, b₁]) := by
  have hhost' : ((s.hostLeft (b₁ :: rest)).memWrite s.g.dmaAddr b₀).env.hostBytes = b₁ :: rest := rfl
  simp only [transferIn, hunit, drawHostByte_of_cons hhost, drawHostByte_of_cons hhost']
  rfl

/-- R125: a cycle from the host stores the bytes of one unit, with the host's bytes supplied (log 7). -/
theorem transferIn_supplied {s : State} {bytes rest : List Byte} (hc : s.cfg.WF)
    (hlen : bytes.length = unitBytes s.dma.bytesPerUnit) (hhost : s.env.hostBytes = bytes ++ rest) :
    (∀ k, k < unitBytes s.dma.bytesPerUnit →
      (transferIn s).byteAt (maskAddr s.cfg (s.g.dmaAddr + BitVec.ofNat 24 k)) = bytes.getD k 0) ∧
    (∀ a, (∀ k, k < unitBytes s.dma.bytesPerUnit → a ≠ maskAddr s.cfg (s.g.dmaAddr + BitVec.ofNat 24 k)) →
      (transferIn s).byteAt a = s.byteAt a) ∧
    (transferIn s).env = { s.env with hostBytes := rest } ∧
    (transferIn s).emitted = s.emitted ++ [.dmaIn s.g.dmaAddr bytes] := by
  have hzero : s.g.dmaAddr + BitVec.ofNat 24 0 = s.g.dmaAddr := BitVec.add_zero _
  cases hunit : s.dma.bytesPerUnit with
  | one =>
    rw [hunit] at hlen
    obtain ⟨b, rfl⟩ := List.length_eq_one_iff.mp hlen
    rw [transferIn_one (rest := rest) hunit hhost]
    have hbyte : ∀ a, (((s.hostLeft rest).memWrite s.g.dmaAddr b).emit (.dmaIn s.g.dmaAddr [b])).byteAt a =
        if a = maskAddr s.cfg s.g.dmaAddr then b else s.byteAt a := State.byteAt_memWrite _ _ (s.hostLeft rest)
    refine ⟨fun k hk => ?_, fun a ha => ?_, rfl, rfl⟩
    · obtain rfl : k = 0 := Nat.lt_one_iff.mp hk
      rw [hzero, hbyte, if_pos rfl]
      rfl
    · rw [hbyte, if_neg (hzero ▸ ha 0 Nat.one_pos)]
  | two =>
    rw [hunit] at hlen
    obtain ⟨b₀, b₁, rfl⟩ := List.length_eq_two.mp hlen
    rw [transferIn_two (rest := rest) hunit hhost]
    have hapart := maskAddr_succ_ne hc s.g.dmaAddr
    have hbyte : ∀ a, ((((s.hostLeft rest).memWrite s.g.dmaAddr b₀).memWrite (s.g.dmaAddr + 1) b₁).emit
        (.dmaIn s.g.dmaAddr [b₀, b₁])).byteAt a =
          if a = maskAddr s.cfg (s.g.dmaAddr + 1) then b₁
          else if a = maskAddr s.cfg s.g.dmaAddr then b₀ else s.byteAt a := fun a => by
      rw [State.emit_byteAt, State.byteAt_memWrite, State.byteAt_memWrite]
      rfl
    refine ⟨fun k hk => ?_, fun a ha => ?_, rfl, rfl⟩
    · obtain rfl | rfl : k = 0 ∨ k = 1 := Nat.le_one_iff_eq_zero_or_eq_one.mp (Nat.le_of_lt_succ hk)
      · rw [hzero, hbyte, if_neg hapart.symm, if_pos rfl]
        rfl
      · exact (hbyte _).trans (if_pos rfl)
    · exact (hbyte a).trans ((if_neg (ha 1 Nat.one_lt_two)).trans (if_neg (hzero ▸ ha 0 Nat.two_pos)))

/-- R40, R125: the state in which a cycle moves its bytes. -/
def State.inflight (s : State) : State := { s with dma := { s.dma with xfer := .inflight } }

/-- R125: the bytes of one unit moved in the direction of `DIR`. -/
def State.moveUnit (s : State) : State :=
  if dmaDir s.g.dmaControl then transferOut s.inflight else transferIn s.inflight

/-- R125: what a cycle does beside moving its bytes it does to the register file and the engine. -/
theorem transferCycle_eq_moveUnit (s : State) :
    transferCycle s = { s.moveUnit with g := (transferCycle s).g, dma := (transferCycle s).dma } := rfl

theorem State.moveUnit_of_in {s : State} (h : s.g.dmaControl.getLsbD 1 = false) :
    s.moveUnit = transferIn s.inflight := if_neg (Bool.eq_false_iff.mp h)

theorem State.moveUnit_of_out {s : State} (h : s.g.dmaControl.getLsbD 1 = true) :
    s.moveUnit = transferOut s.inflight := if_pos h

/-- Settles O52, by the direction of the cycle. -/
theorem aTransferCycleMovesExactlyOneUnit : Obligations.ATransferCycleMovesExactlyOneUnit := by
  intro s bytes rest hc n place t hlen
  have hn : n = unitBytes s.dma.bytesPerUnit := rfl
  have hplace : place = fun k => maskAddr s.cfg (s.g.dmaAddr + BitVec.ofNat 24 k) :=
    funext fun k => (maskAddr_add_ofNat s.cfg s.g.dmaAddr k).symm
  have hg : t.g = { s.g with dmaAddr := BitVec.ofNat 24 (s.g.dmaAddr.toNat + n) } := by
    rw [BitVec.ofNat_add, BitVec.ofNat_toNat, BitVec.setWidth_eq, hn]
    exact transferCycle_g s
  refine ⟨fun hdir hhost => ?fromHost, fun hdir => ?toHost, hg, transferCycle_dma s, transferCycle_cfg s,
    transferCycle_inbox s, fun i => transferCycle_chan i s, ⟨transferCycle_tmr0 s, transferCycle_tmr1 s⟩,
    ⟨transferCycle_now s, transferCycle_alarms s, transferCycle_nextAlarmId s, fun e => transferCycle_event e s⟩,
    transferCycle_fifo s, transferCycle_result s⟩
  case fromHost =>
    have hmoved := transferIn_supplied (s := s.inflight) hc hlen hhost
    dsimp only [t]
    rw [transferCycle_eq_moveUnit, State.moveUnit_of_in hdir, hplace]
    exact hmoved
  case toHost =>
    dsimp only [t]
    rw [transferCycle_eq_moveUnit, State.moveUnit_of_out hdir, transferOut_eq, hplace]
    exact ⟨fun _ => rfl, rfl, rfl⟩

/-! #### The audio FIFO (R132 to R134) -/

/-- R133: a full FIFO drops the byte with a log line. -/
theorem execFifoPush_of_full {s : State} (b : Byte) (h : s.fifo.count = s.cfg.fifoCapacity - 1) :
    execFifoPush b s = .next (s.emit (.log .fifoFull)).done := if_pos h

/-- R133: a FIFO with room takes the byte. -/
theorem execFifoPush_of_room {s : State} (b : Byte) (h : s.fifo.count ≠ s.cfg.fifoCapacity - 1) :
    execFifoPush b s = .next { s with fifo := Fifo.push s.cfg b s.fifo }.done := if_neg h

/-- What a command on the audio FIFO leaves as it was. -/
def SameButFifo (s t : State) : Prop :=
  SameOutside s t ∧ SameChans s t ∧ t.g = s.g ∧ SameTimers s t ∧ t.dma = s.dma ∧ SameSched s t ∧ SameMem s t

/-- A command that writes the FIFO and the outputs leaves everything else as it was. -/
theorem sameButFifo_of_write (s : State) (f : Fifo) (r : Option Imm) (l : List Emission) :
    SameButFifo s { s with fifo := f, result := r, emitted := l } :=
  ⟨⟨rfl, rfl, rfl⟩, fun _ => rfl, rfl, ⟨rfl, rfl⟩, rfl, ⟨rfl, rfl, rfl, fun _ => rfl⟩, fun _ => rfl⟩

/-- R133: the byte pushed is read back at the write index, every other byte as before. -/
theorem Fifo.read_push (c : Config) (b : Byte) (f : Fifo) (k : Nat) :
    Memory.read c.fifoFill (f.push c b).buf k = if k = f.writeIndex then b else Memory.read c.fifoFill f.buf k :=
  Memory.read_write ..

/-- R133: a push starts the FIFO at the threshold. -/
theorem Fifo.push_running_iff (c : Config) (b : Byte) (f : Fifo) :
    (f.push c b).state = .running ↔ f.state = .running ∨ c.fifoThreshold ≤ f.count + 1 := by
  rw [Fifo.push]
  cases f.state <;> simp

/-- R134: a pop stops a running FIFO when it is drained. -/
theorem Fifo.pop_stopped_iff (c : Config) {f : Fifo} (h : f.state = .running) :
    (f.pop c).state = .stopped ↔ f.count - 1 = 0 := by
  simp [Fifo.pop, h]

/-- R134: a byte marked valid is the byte and 256. -/
theorem validByte_eq_ofNat (b : Byte) : 0x100#48 ||| b.setWidth 48 = BitVec.ofNat 48 (256 + b.toNat) := by
  have hb := b.isLt
  apply BitVec.eq_of_toNat_eq
  rw [BitVec.toNat_or, BitVec.toNat_setWidth_of_le (by decide), BitVec.toNat_ofNat (256 + b.toNat)]
  exact (Nat.two_pow_add_eq_or_of_lt hb 1).symm.trans (by omega)

/-- Settles O55, by whether the FIFO is full and whether it runs. -/
theorem fifoPushAndPopFollowTheirRules : Obligations.FifoPushAndPopFollowTheirRules := by
  intro s f cap at_
  refine ⟨fun b => ?push, ?pop⟩
  case push =>
    by_cases hfull : f.count = cap - 1
    · exact ⟨_, execFifoPush_of_full b hfull, rfl, fun _ => ⟨rfl, rfl⟩, fun h => absurd hfull h,
        sameButFifo_of_write ..⟩
    · exact ⟨_, execFifoPush_of_room b hfull, rfl, fun h => absurd h hfull,
        fun _ => ⟨rfl, Fifo.read_push s.cfg b f, rfl, rfl, rfl, Fifo.push_running_iff s.cfg b f⟩,
        sameButFifo_of_write ..⟩
  case pop =>
    cases hstate : f.state with
    | stopped =>
      exact ⟨_, execFifoPop_of_stopped hstate, rfl, fun _ => ⟨rfl, rfl⟩, nofun, sameButFifo_of_write ..⟩
    | running =>
      exact ⟨_, execFifoPop_of_running hstate, rfl, nofun,
        fun _ => ⟨congrArg some (validByte_eq_ofNat _), fun _ => rfl, rfl, rfl, rfl, Fifo.pop_stopped_iff s.cfg hstate⟩,
        sameButFifo_of_write ..⟩

/-- R132: the slot after the last byte is the one that the next push writes. -/
theorem Fifo.Ok.slot_count {c : Config} {f : Fifo} (h : f.Ok c) :
    (f.readIndex + f.count) % c.fifoCapacity = f.writeIndex := by
  obtain ⟨hw, hr, hcount, -, -, -⟩ := h
  rw [hcount, Nat.add_mod_mod, show f.readIndex + (f.writeIndex + c.fifoCapacity - f.readIndex) =
    f.writeIndex + c.fifoCapacity by omega, Nat.add_mod_right, Nat.mod_eq_of_lt hw]

/-- R132: no byte of the contents lies in the slot that the next push writes. -/
theorem Fifo.Ok.slot_ne_writeIndex {c : Config} {f : Fifo} (h : f.Ok c) {k : Nat} (hk : k < f.count) :
    (f.readIndex + k) % c.fifoCapacity ≠ f.writeIndex := by
  have hcount : f.count < c.fifoCapacity := h.count_eq ▸ Nat.mod_lt _ (Nat.zero_lt_of_lt h.read_lt)
  intro hslot
  have hmod : f.readIndex + k ≡ f.readIndex + f.count [MOD c.fifoCapacity] := hslot.trans h.slot_count.symm
  exact hk.ne (hmod.add_left_cancel'.eq_of_lt_of_lt (hk.trans hcount) hcount)

/-- R133: a push appends its byte to the contents. -/
theorem Fifo.Ok.contents_push {c : Config} {f : Fifo} (h : f.Ok c) (b : Byte) :
    (f.push c b).contents c = f.contents c ++ [b] := by
  have hlast : Memory.read c.fifoFill (f.push c b).buf ((f.readIndex + f.count) % c.fifoCapacity) = b := by
    rw [Fifo.read_push, if_pos h.slot_count]
  have hrest : ∀ k ∈ List.range f.count,
      Memory.read c.fifoFill (f.push c b).buf ((f.readIndex + k) % c.fifoCapacity) =
        Memory.read c.fifoFill f.buf ((f.readIndex + k) % c.fifoCapacity) := fun k hk => by
    rw [Fifo.read_push, if_neg (h.slot_ne_writeIndex (List.mem_range.mp hk))]
  change (List.range (f.count + 1)).map _ = _
  rw [List.range_succ, List.map_append, List.map_singleton]
  exact congrArg₂ _ (List.map_congr_left hrest) (congrArg (fun x => [x]) hlast)

/-- R134: a pop takes the byte at the read index off the front of the contents. -/
theorem Fifo.contents_eq_cons_pop {c : Config} {f : Fifo} (hr : f.readIndex < c.fifoCapacity) (hpos : 1 ≤ f.count) :
    f.contents c = Memory.read c.fifoFill f.buf f.readIndex :: (f.pop c).contents c := by
  have hslot : ∀ k, ((f.readIndex + 1) % c.fifoCapacity + k) % c.fifoCapacity =
      (f.readIndex + (k + 1)) % c.fifoCapacity := fun k => by rw [Nat.mod_add_mod, Nat.add_right_comm, Nat.add_assoc]
  obtain ⟨n, hn⟩ := Nat.exists_eq_add_of_le' hpos
  simp [Fifo.contents, Fifo.pop, hn, List.range_succ_eq_map, hslot, Nat.mod_eq_of_lt hr]

/-- Settles O56: the contents before and after a push and a pop. -/
theorem theFifoIsAQueue : Obligations.TheFifoIsAQueue := by
  intro s _ hok
  refine ⟨fun b hroom => ?push, fun hrun => ?pop⟩
  case push => exact ⟨_, execFifoPush_of_room b (by omega), hok.contents_push b⟩
  case pop =>
    exact ⟨_, _, execFifoPop_of_running hrun, rfl, Fifo.contents_eq_cons_pop hok.read_lt (hok.running_count hrun)⟩

end Sys2Proof.Machine

/-! ### The family of `42_channel_regs.md`: the writes and reads of the channel registers, the default step functions -/

namespace Sys2Proof.Machine

/-! #### The default step functions (R147, R152) -/

/-- R8: in range of the table, every rate is positive. -/
theorem rateOf_pos_of_wf {c : Config} (hc : c.WF) {n : Nat} (h1 : 1 ≤ n) (h32 : n ≤ 32) : 0 < rateOf c n := by
  obtain ⟨-, -, ⟨hlength, hpos, -⟩, -⟩ := hc
  have hn : n - 1 < c.rateTable.length := by omega
  rw [rateOf, List.getD_eq_getElem _ _ hn]
  exact hpos _ (List.getElem_mem hn)

/-- R147: with the flag clear, the ticks follow the rate and the scale cancels. -/
theorem mul_rateOf_div_tickRate_of_clear {c : Config} {n : Nat} (hrate : 0 < rateOf c n)
    (hflag : c.fixedRateFlag = false) (x : Nat) : x * rateOf c n / tickRate c n = x := by
  have htick : tickRate c n = rateOf c n := by simp [tickRate, hflag]
  rw [htick, Nat.mul_div_cancel _ hrate]

/-- R147: with the flag set, the ticks come at the fixed rate. -/
theorem tickRate_of_set {c : Config} (hflag : c.fixedRateFlag = true) (n : Nat) : tickRate c n = c.fixedRateHz :=
  if_pos hflag

theorem waveStep_of_standard {c : Config} (hcurve : c.waveStepCurve = .standard) (f : BitVec 16) (n : Nat) :
    waveStep c f n = BitVec.ofNat 34 (f.toNat * rateOf c n / tickRate c n) := by
  rw [waveStep, hcurve]

theorem rampStep_toNat_of_standard {c : Config} (hcurve : c.rampStepCurve = .standard) (r : BitVec 8) (n : Nat) :
    (rampStep c r n).toNat = rampBase r * rateOf c n / tickRate c n % 2 ^ 24 := by
  rw [rampStep, hcurve, BitVec.toNat_ofNat]

/-- R152: bits 5:0 and 7:6 of the rate as a remainder and a quotient. -/
theorem rampBase_eq (r : BitVec 8) : rampBase r = r.toNat % 64 * 1024 / 8 ^ (r.toNat / 64) := by
  have hlow : (r &&& 0x3F#8).toNat = r.toNat % 64 := by
    rw [BitVec.toNat_and]
    exact Nat.and_two_pow_sub_one_eq_mod r.toNat 6
  have hhigh : (r >>> 6).toNat = r.toNat / 64 := by rw [BitVec.toNat_ushiftRight, Nat.shiftRight_eq_div_pow]
  rw [rampBase, hlow, hhigh]

/-- R152: `RampBase` fits the increment's field. -/
theorem rampBase_lt (r : BitVec 8) : rampBase r < 2 ^ 24 :=
  calc rampBase r ≤ (r &&& 0x3F#8).toNat * 1024 := Nat.div_le_self ..
    _ < 2 ^ 24 := by
      have := (r &&& 0x3F#8).isLt
      omega

/-- Settles O16: the scale cancels with the flag clear, and stays as the formula gives it with the flag set. -/
theorem defaultStepFunctionsScaleByTheRate : Obligations.DefaultStepFunctionsScaleByTheRate := by
  intro c n hc h1 h32
  have hrate : 0 < rateOf c n := rateOf_pos_of_wf hc h1 h32
  refine ⟨fun hcurve f => ⟨fun hflag => ?waveClear, fun hflag => ?waveSet⟩,
    fun hcurve r => ⟨fun hflag => ?rampClear, fun hflag => ?rampSet⟩⟩
  case waveClear =>
    rw [waveStep_of_standard hcurve, mul_rateOf_div_tickRate_of_clear hrate hflag, BitVec.ofNat_toNat]
  case waveSet => rw [waveStep_of_standard hcurve, tickRate_of_set hflag, BitVec.toNat_ofNat]
  case rampClear =>
    rw [rampStep_toNat_of_standard hcurve, mul_rateOf_div_tickRate_of_clear hrate hflag,
      Nat.mod_eq_of_lt (rampBase_lt r), rampBase_eq]
  case rampSet => rw [rampStep_toNat_of_standard hcurve, tickRate_of_set hflag, rampBase_eq]

/-! #### Writes of the selected channel (R140 to R165) -/

/-- R140: a rewrite of the selected channel, handing nothing back, leaves everything else as it was. -/
theorem State.onSel_done_sameButChan (f : Channel → Channel) (s : State) : SameButChan s.sel s (s.onSel f).done :=
  ⟨⟨rfl, rfl, rfl⟩, fun _ hj => State.chan_onSel_ne f s hj, rfl, ⟨rfl, rfl⟩, rfl, ⟨rfl, rfl, rfl, fun _ => rfl⟩, rfl,
    fun _ => rfl⟩

/-- R140: a command that rewrites the selected channel and does nothing else. -/
theorem channelWrite_of_exec {i : Instr} {s : State} {f : Channel → Channel}
    (h : exec i s = .next (s.onSel f).done) :
    ∃ t, exec i s = .next t ∧ Silent s t ∧ SameButChan s.sel s t ∧ t.chan s.sel = f (s.chan s.sel) :=
  ⟨_, h, ⟨rfl, rfl⟩, State.onSel_done_sameButChan f s, State.chan_onSel_self f s⟩

/-- Settles O11: each of the seven commands is one rewrite of the selected channel. -/
theorem plainChannelWritesStoreOnlyTheirRegister : Obligations.PlainChannelWritesStoreOnlyTheirRegister := by
  intro s
  refine ⟨fun v => ?wctrl, fun a => ?wstart, fun a => ?wend, fun a => ?waddr, fun v => ?rctrl, fun v => ?rstart,
    fun v => ?rend⟩
  case wctrl => exact channelWrite_of_exec (f := fun c => { c with waveControl := v }) rfl
  case wstart => exact channelWrite_of_exec (f := fun c => { c with waveStart := a }) rfl
  case wend => exact channelWrite_of_exec (f := fun c => { c with waveEnd := a }) rfl
  case waddr => exact channelWrite_of_exec (f := fun c => { c with waveAddr := a }) rfl
  case rctrl => exact channelWrite_of_exec (f := fun c => { c with rampControl := v }) rfl
  case rstart => exact channelWrite_of_exec (f := fun c => { c with rampStart := v }) rfl
  case rend => exact channelWrite_of_exec (f := fun c => { c with rampEnd := v }) rfl

/-- Settles O12: the rate and its increment are stored by one rewrite of the selected channel. -/
theorem rateWritesStoreTheRateAndItsIncrement : Obligations.RateWritesStoreTheRateAndItsIncrement := by
  intro s
  refine ⟨fun f => ?wfreq, fun r => ?rrate⟩
  case wfreq =>
    exact channelWrite_of_exec (f := fun c =>
      { c with waveFreq := f, waveIncrement := waveStep s.cfg f s.g.activeVoiceCount.toNat }) rfl
  case rrate =>
    exact channelWrite_of_exec (f := fun c =>
      { c with rampRate := r, rampIncrement := rampStep s.cfg r s.g.activeVoiceCount.toNat }) rfl

/-- R163: the clamped level as a number. -/
theorem clampRamp_toNat {c : Config} (hc : c.WF) (v : RampQ) :
    (clampRamp c v.toNat).toNat = min v.toNat (c.maxRamp - 1) := by
  obtain ⟨hmin, hmax⟩ := maxRamp_bounds_of_wf hc
  rcases Nat.lt_or_ge v.toNat c.maxRamp with h | h
  · rw [clampRamp_of_lt h]
    omega
  · rw [clampRamp_of_le h, BitVec.toNat_ofNat]
    omega

/-- Settles O13: one rewrite of the selected channel, whose factors are recomputed from the level as it was clamped. -/
theorem volumeAndPanWritesRecomputeTheAttenuation : Obligations.VolumeAndPanWritesRecomputeTheAttenuation := by
  intro s hc
  refine ⟨fun v => ?rvol, fun p => ?pan⟩
  case rvol =>
    obtain ⟨t, hexec, hsilent, hframe, hchan⟩ := channelWrite_of_exec (i := .setRvol v) (s := s)
      (f := fun c => Channel.updateAtten s.cfg { c with rampVol := clampRamp s.cfg v.toNat }) rfl
    have hlevel : (t.chan s.sel).rampVol = clampRamp s.cfg v.toNat := congrArg Channel.rampVol hchan
    refine ⟨t, hexec, hsilent, hframe, ?_, ?_⟩
    · rw [hlevel, clampRamp_toNat hc]
    · rw [hlevel]
      exact hchan
  case pan =>
    exact channelWrite_of_exec (f := fun c => Channel.updateAtten s.cfg { c with panPosition := p }) rfl

/-! #### Reads of the selected channel (R144 to R166) -/

/-- Settles O14: each of the eleven commands hands a register of the selected channel back and does nothing else. -/
theorem channelReadsHandBackTheirRegister : Obligations.ChannelReadsHandBackTheirRegister := by
  intro s
  exact ⟨read_of_exec rfl, read_of_exec rfl, read_of_exec rfl, read_of_exec rfl, read_of_exec rfl, read_of_exec rfl,
    read_of_exec rfl, read_of_exec rfl, read_of_exec rfl, read_of_exec rfl, read_of_exec rfl⟩

end Sys2Proof.Machine

/-! ### The family of `43_wave_ramp.md`: the wave generator, the ramp generator, the audio tick that runs them -/

namespace Sys2Proof.Machine

/-! #### One generator's advance on the state -/

/-- A cause flag after a generator may have raised that of channel `i` (R171, R177). -/
theorem raiseCause_getLsbD_iff {raised : Bool} {i k : ChanIdx} {m : BitVec 32} :
    (raiseCause raised i m).getLsbD k.val = true ↔ m.getLsbD k.val = true ∨ (k = i ∧ raised = true) := by
  rw [raiseCause_getLsbD, Bool.or_eq_true, Bool.and_eq_true, decide_eq_true_iff]

/-- A rewrite of one channel and of the register file leaves everything else as it was. -/
theorem State.setChan_onG_frame {i : ChanIdx} {ch : Channel} {f : Globals → Globals} {s t : State}
    (h : t = (s.setChan i ch).onG f) :
    SameChansBut i s t ∧ SameOutside s t ∧ SameTimers s t ∧ t.dma = s.dma ∧ SameSched s t ∧ t.fifo = s.fifo ∧
      SameMem s t ∧ t.result = s.result ∧ t.emitted = s.emitted := by
  subst h
  exact ⟨fun _ hj => State.chan_setChan_ne _ s hj, ⟨rfl, rfl, rfl⟩, ⟨rfl, rfl⟩, rfl, ⟨rfl, rfl, rfl, fun _ => rfl⟩,
    rfl, fun _ => rfl, rfl, rfl⟩

/-- R171: the wave advance rewrites its channel and its cause flag. -/
theorem advanceWave_eq (i : ChanIdx) (s : State) :
    advanceWave i s =
      (s.setChan i (s.chan i).advanceWave).onG
        (fun g => { g with waveIrq := raiseCause (s.chan i).waveRaises i g.waveIrq }) := rfl

/-- R177: the ramp advance rewrites its channel and its cause flag. -/
theorem advanceRamp_eq (i : ChanIdx) (s : State) :
    advanceRamp i s =
      (s.setChan i ((s.chan i).advanceRamp s.cfg)).onG
        (fun g => { g with rampIrq := raiseCause (s.chan i).rampRaises i g.rampIrq }) := rfl

theorem advanceWave_chan_self (i : ChanIdx) (s : State) : (advanceWave i s).chan i = (s.chan i).advanceWave :=
  State.chan_setChan_self ..

theorem advanceRamp_chan_self (i : ChanIdx) (s : State) :
    (advanceRamp i s).chan i = (s.chan i).advanceRamp s.cfg := State.chan_setChan_self ..

/-! #### The wave generator's arithmetic on naturals (R171, R174) -/

namespace Channel

variable (c : Channel)

/-- R171: the advanced address as a number modulo `2^34`. -/
theorem waveNext_toNat :
    c.waveNext.toNat =
      if c.waveControl.getLsbD 4 then (c.waveAddr.toNat + 2 ^ 34 - c.waveIncrement.toNat) % 2 ^ 34
      else (c.waveAddr.toNat + c.waveIncrement.toNat) % 2 ^ 34 := by
  unfold waveNext ctlDec
  split
  · bv_omega
  · exact BitVec.toNat_add ..

/-- R174: a boundary is hit strictly beyond it, on the side that the voice moves toward. -/
theorem waveHit_iff :
    c.waveHit = true ↔
      if c.waveControl.getLsbD 4 then c.waveNext.toNat < c.waveStart.toNat
      else c.waveEnd.toNat < c.waveNext.toNat := by
  unfold waveHit ctlDec
  split <;> exact BitVec.ult_iff_lt

variable {c}

/-- R174 (b): beyond the boundary the overshoot is the distance to it. -/
theorem waveOver_toNat_of_hit (h : c.waveHit = true) :
    c.waveOver.toNat =
      if c.waveControl.getLsbD 4 then c.waveStart.toNat - c.waveNext.toNat
      else c.waveNext.toNat - c.waveEnd.toNat := by
  rw [waveHit_iff] at h
  unfold waveOver ctlDec
  split at h
  next hdec => rw [if_pos hdec, if_pos hdec]; bv_omega
  next hdec => rw [if_neg hdec, if_neg hdec]; bv_omega

/-- R171, R176: the cause is that of a running voice that hits a boundary with `IRQEN`. -/
theorem waveRaises_iff :
    c.waveRaises = true ↔
      ¬c.waveControl.getLsbD 0 = true ∧ c.waveHit = true ∧ c.waveControl.getLsbD 5 = true := by
  unfold waveRaises ctlStopped ctlIrqEn
  rw [Bool.and_eq_true, Bool.and_eq_true, Bool.not_eq_true', Bool.not_eq_true, and_assoc]

/-! #### The rows of the wave generator's outcome table (R176) -/

theorem advanceWave_of_stopped (h : c.waveControl.getLsbD 0 = true) : c.advanceWave = c := if_pos h

/-- R171: a running voice that hits no boundary takes the advanced address and nothing else. -/
theorem advanceWave_of_not_hit (hrun : ¬c.waveControl.getLsbD 0 = true) (hhit : ¬c.waveHit = true) :
    c.advanceWave = { c with waveAddr := c.waveNext } :=
  (if_neg hrun).trans (if_neg hhit)

theorem advanceWave_of_hit (hrun : ¬c.waveControl.getLsbD 0 = true) (hhit : c.waveHit = true) :
    c.advanceWave = c.waveBoundary :=
  (if_neg hrun).trans (if_pos hhit)

theorem waveBoundary_of_rollover (h : c.rampControl.getLsbD 3 = true) :
    c.waveBoundary = { c with waveAddr := c.waveNext } := if_pos h

theorem waveBoundary_of_loop (hroll : ¬c.rampControl.getLsbD 3 = true) (hloop : c.waveControl.getLsbD 1 = true)
    (hbidir : ¬c.waveControl.getLsbD 2 = true) :
    c.waveBoundary =
      { c with
        waveAddr := if c.waveControl.getLsbD 4 then c.waveEnd - c.waveOver else c.waveStart + c.waveOver } :=
  (if_neg hroll).trans ((if_pos hloop).trans (if_neg hbidir))

theorem waveBoundary_of_bounce (hroll : ¬c.rampControl.getLsbD 3 = true) (hloop : c.waveControl.getLsbD 1 = true)
    (hbidir : c.waveControl.getLsbD 2 = true) :
    c.waveBoundary =
      { c with
        waveAddr := if c.waveControl.getLsbD 4 then c.waveStart + c.waveOver else c.waveEnd - c.waveOver
        waveControl := c.waveControl ^^^ 0x10#8 } :=
  (if_neg hroll).trans ((if_pos hloop).trans (if_pos hbidir))

theorem waveBoundary_of_stop (hroll : ¬c.rampControl.getLsbD 3 = true) (hloop : ¬c.waveControl.getLsbD 1 = true) :
    c.waveBoundary =
      { c with
        waveAddr := if c.waveControl.getLsbD 4 then c.waveStart else c.waveEnd
        waveControl := c.waveControl ||| 0x01#8 } :=
  (if_neg hroll).trans (if_neg hloop)

end Channel

/-- Settles O17: the numbers of the table are the model's address, boundary test and overshoot; then one lemma per
row. -/
theorem advanceWaveFollowsTheOutcomeTable : Obligations.AdvanceWaveFollowsTheOutcomeTable := by
  intro i s c t dec a hit past fromStart fromEnd stopped loop bidir rollover
  have hnext : a = c.waveNext.toNat := c.waveNext_toNat.symm
  have haddr : BitVec.ofNat 34 a = c.waveNext := by rw [hnext, BitVec.ofNat_toNat, BitVec.setWidth_eq]
  have hhit : hit ↔ c.waveHit = true := by rw [c.waveHit_iff, ← hnext]
  have hpast (h : hit) : past = c.waveOver.toNat := by rw [Channel.waveOver_toNat_of_hit (hhit.mp h), ← hnext]
  have hfromStart (h : hit) : fromStart = c.waveStart + c.waveOver := by
    change BitVec.ofNat 34 (c.waveStart.toNat + past) = _
    rw [hpast h, BitVec.add_def]
  have hfromEnd (h : hit) : fromEnd = c.waveEnd - c.waveOver := by
    change BitVec.ofNat 34 (c.waveEnd.toNat + 2 ^ 34 - past) = _
    rw [hpast h]
    bv_omega
  have hchan : t.chan i = c.advanceWave := advanceWave_chan_self i s
  rw [hchan, haddr]
  refine ⟨Channel.advanceWave_of_stopped, fun hrun hmiss => ?miss, fun hrun h hroll => ?rollover,
    fun hrun h hroll hloop hbidir => ?loop, fun hrun h hroll hloop hbidir => ?bounce,
    fun hrun h hroll hloop => ?stop, fun k => ?cause, rfl, State.setChan_onG_frame (advanceWave_eq i s)⟩
  case miss => exact Channel.advanceWave_of_not_hit hrun (mt hhit.mpr hmiss)
  case rollover => rw [Channel.advanceWave_of_hit hrun (hhit.mp h), Channel.waveBoundary_of_rollover hroll]
  case loop =>
    rw [Channel.advanceWave_of_hit hrun (hhit.mp h), Channel.waveBoundary_of_loop hroll hloop hbidir, hfromStart h,
      hfromEnd h]
  case bounce =>
    rw [Channel.advanceWave_of_hit hrun (hhit.mp h), Channel.waveBoundary_of_bounce hroll hloop hbidir, hfromStart h,
      hfromEnd h]
  case stop => rw [Channel.advanceWave_of_hit hrun (hhit.mp h), Channel.waveBoundary_of_stop hroll hloop]
  case cause =>
    rw [hhit, ← Channel.waveRaises_iff]
    exact raiseCause_getLsbD_iff

/-! #### No drift (R172), and the wrap below zero (R173) -/

namespace Channel

/-- R172: one advance without a boundary, as a number modulo `2^34`. -/
theorem waveNext_toNat_emod (c : Channel) :
    (c.waveNext.toNat : Int) =
      (if c.waveControl.getLsbD 4 then (c.waveAddr.toNat : Int) - c.waveIncrement.toNat
        else (c.waveAddr.toNat : Int) + c.waveIncrement.toNat) % 2 ^ 34 := by
  rw [waveNext_toNat]
  split <;> omega

/-- R172: an advance without a boundary of a channel that differs from `c` in its address only. -/
theorem advanceWave_of_addr_moved {c d : Channel} (hrun : ¬c.waveControl.getLsbD 0 = true)
    (hd : d = { c with waveAddr := d.waveAddr }) (hmiss : ¬d.waveHit = true) :
    d.advanceWave = { c with waveAddr := d.waveNext } := by
  have hcontrol : d.waveControl = c.waveControl := by rw [hd]
  rw [advanceWave_of_not_hit (by rwa [hcontrol]) hmiss]
  exact congrArg (fun x : Channel => { x with waveAddr := d.waveNext }) hd

/-- R172: `N` advances without a boundary write the address only. -/
theorem iterate_advanceWave_eq {c : Channel} {N : Nat} (hrun : ¬c.waveControl.getLsbD 0 = true)
    (hmiss : ∀ n, n < N → (advanceWave^[n] c).waveHit = false) :
    advanceWave^[N] c = { c with waveAddr := (advanceWave^[N] c).waveAddr } := by
  induction N with
  | zero => rfl
  | succ N ih =>
    have hstep := advanceWave_of_addr_moved hrun (ih fun n hn => hmiss n (by omega)) (by simp [hmiss N])
    rw [Function.iterate_succ_apply', hstep]

/-- R172: the address after `N` advances without a boundary. -/
theorem iterate_advanceWave_addr {c : Channel} {N : Nat} (hrun : ¬c.waveControl.getLsbD 0 = true)
    (hmiss : ∀ n, n < N → (advanceWave^[n] c).waveHit = false) :
    ((advanceWave^[N] c).waveAddr.toNat : Int) =
      (if c.waveControl.getLsbD 4 then (c.waveAddr.toNat : Int) - N * c.waveIncrement.toNat
        else (c.waveAddr.toNat : Int) + N * c.waveIncrement.toNat) % 2 ^ 34 := by
  induction N with
  | zero =>
    have := c.waveAddr.isLt
    simp only [Function.iterate_zero, id_eq]
    split <;> omega
  | succ N ih =>
    have hbefore (n : Nat) (hn : n < N) : (advanceWave^[n] c).waveHit = false := hmiss n (by omega)
    have hd := iterate_advanceWave_eq hrun hbefore
    have hcontrol : (advanceWave^[N] c).waveControl = c.waveControl := by rw [hd]
    have hincrement : (advanceWave^[N] c).waveIncrement = c.waveIncrement := by rw [hd]
    have haddr : (advanceWave^[N + 1] c).waveAddr = (advanceWave^[N] c).waveNext := by
      rw [Function.iterate_succ_apply', advanceWave_of_addr_moved hrun hd (by simp [hmiss N])]
    have hprev := ih hbefore
    have hmul : ((N + 1 : Nat) : Int) * c.waveIncrement.toNat = N * c.waveIncrement.toNat + c.waveIncrement.toNat := by
      rw [Nat.cast_succ, add_one_mul]
    rw [haddr, waveNext_toNat_emod, hcontrol, hincrement, hmul]
    split at hprev
    next hdec => rw [if_pos hdec, if_pos hdec]; omega
    next hdec => rw [if_neg hdec, if_neg hdec]; omega

/-- R173: below zero the address wraps modulo `2^34`. -/
theorem waveNext_of_underflow {c : Channel} (hdec : c.waveControl.getLsbD 4 = true)
    (h : c.waveAddr.toNat < c.waveIncrement.toNat) :
    c.waveNext.toNat = 2 ^ 34 - (c.waveIncrement.toNat - c.waveAddr.toNat) := by
  rw [waveNext_toNat, if_pos hdec]
  omega

end Channel

/-- Settles O18: the address by induction on the advances, each of which writes nothing else. -/
theorem waveAddressAccumulatesWithoutDrift : Obligations.WaveAddressAccumulatesWithoutDrift := by
  intro c N hstopped hmiss d
  have hrun : ¬c.waveControl.getLsbD 0 = true := ne_true_of_eq_false hstopped
  exact ⟨Channel.iterate_advanceWave_eq hrun hmiss, Channel.iterate_advanceWave_addr hrun hmiss⟩

/-- Settles O19: the wrapped address is not below `wave_start`, so that the advance is one without a boundary. -/
theorem anUnderflowingAddressWrapsUnseen : Obligations.AnUnderflowingAddressWrapsUnseen := by
  intro c hstopped hdec hunder hstart
  have hrun : ¬c.waveControl.getLsbD 0 = true := ne_true_of_eq_false hstopped
  have hnext := Channel.waveNext_of_underflow hdec hunder
  have hmiss : ¬c.waveHit = true := by
    rw [Channel.waveHit_iff, if_pos hdec, hnext]
    omega
  refine ⟨?_, ?_⟩
  · rw [Channel.advanceWave_of_not_hit hrun hmiss, ← hnext, BitVec.ofNat_toNat, BitVec.setWidth_eq]
  · rw [← Bool.not_eq_true, Channel.waveRaises_iff]
    exact fun ⟨_, hhit, _⟩ => hmiss hhit

/-! #### The ramp generator (R177) -/

/-- R177: a clamped level as an integer. -/
theorem clampRamp_toInt {cfg : Config} (hc : cfg.WF) (x : Int) :
    ((clampRamp cfg x).toNat : Int) = max 0 (min x ((cfg.maxRamp : Int) - 1)) := by
  obtain ⟨hmin, hmax⟩ := maxRamp_bounds_of_wf hc
  rw [clampRamp, BitVec.toNat_ofNat]
  omega

namespace Channel

variable {cfg : Config} {c : Channel}

/-- R177: a boundary is hit strictly beyond it, on the side that the ramp moves toward. -/
theorem rampHit_iff :
    c.rampHit = true ↔
      if c.rampControl.getLsbD 4 then c.rampNext < c.rampStart.toNat else c.rampNext > c.rampEnd.toNat := by
  unfold rampHit ctlDec
  split <;> exact decide_eq_true_iff

/-- R177: the cause is that of a running ramp that hits a boundary with `IRQEN`. -/
theorem rampRaises_iff :
    c.rampRaises = true ↔
      ¬c.rampControl.getLsbD 0 = true ∧ c.rampHit = true ∧ c.rampControl.getLsbD 5 = true := by
  unfold rampRaises ctlStopped ctlIrqEn
  rw [Bool.and_eq_true, Bool.and_eq_true, Bool.not_eq_true', Bool.not_eq_true, and_assoc]

theorem advanceRamp_of_stopped (h : c.rampControl.getLsbD 0 = true) : c.advanceRamp cfg = c := if_pos h

/-- R177: a running ramp that hits no boundary takes the clamped level, and the factors follow it. -/
theorem advanceRamp_of_not_hit (hrun : ¬c.rampControl.getLsbD 0 = true) (hhit : ¬c.rampHit = true) :
    c.advanceRamp cfg = updateAtten cfg { c with rampVol := clampRamp cfg c.rampNext } :=
  (if_neg hrun).trans (if_neg hhit)

/-- R177: a running ramp that hits a boundary takes the boundary's clamped level and control byte. -/
theorem advanceRamp_of_hit (hrun : ¬c.rampControl.getLsbD 0 = true) (hhit : c.rampHit = true) :
    c.advanceRamp cfg =
      updateAtten cfg
        { c with rampVol := clampRamp cfg c.rampBoundaryLevel, rampControl := c.rampBoundaryControl } :=
  (if_neg hrun).trans (if_pos hhit)

/-- R177: a running ramp writes level and control byte, recomputes both factors, and leaves the rest of the channel. -/
theorem advanceRamp_frame (hrun : ¬c.rampControl.getLsbD 0 = true) :
    c.advanceRamp cfg =
      { c with
        rampVol := (c.advanceRamp cfg).rampVol, rampControl := (c.advanceRamp cfg).rampControl
        attenL := attenLeft cfg c.panPosition (c.advanceRamp cfg).rampVol
        attenR := attenRight cfg c.panPosition (c.advanceRamp cfg).rampVol } := by
  by_cases hhit : c.rampHit = true
  · rw [advanceRamp_of_hit hrun hhit]
    rfl
  · rw [advanceRamp_of_not_hit hrun hhit]
    rfl

/-- R177: the level and the control byte after a boundary, `lv` and `rc`, whichever they are. -/
theorem advanceRamp_boundary (hc : cfg.WF) (hrun : ¬c.rampControl.getLsbD 0 = true) (hhit : c.rampHit = true)
    {lv : Int} {rc : BitVec 8} (hlevel : c.rampBoundaryLevel = lv) (hcontrol : c.rampBoundaryControl = rc) :
    ((c.advanceRamp cfg).rampVol.toNat : Int) = max 0 (min lv ((cfg.maxRamp : Int) - 1)) ∧
      (c.advanceRamp cfg).rampControl = rc := by
  rw [advanceRamp_of_hit hrun hhit, hlevel, hcontrol]
  exact ⟨clampRamp_toInt hc lv, rfl⟩

/-- R177: the level of a bounce. -/
theorem rampBoundaryLevel_of_bounce (hloop : c.rampControl.getLsbD 1 = true) (hbidir : c.rampControl.getLsbD 2 = true) :
    c.rampBoundaryLevel =
      if c.rampControl.getLsbD 4 then (c.rampStart.toNat : Int) + (c.rampStart.toNat - c.rampNext)
      else (c.rampEnd.toNat : Int) - (c.rampNext - c.rampEnd.toNat) := by
  unfold rampBoundaryLevel rampOver ctlLoop ctlBidir ctlDec
  rw [if_pos hloop, if_pos hbidir]
  split <;> rfl

/-- R177: the level of a loop. -/
theorem rampBoundaryLevel_of_loop (hloop : c.rampControl.getLsbD 1 = true)
    (hbidir : ¬c.rampControl.getLsbD 2 = true) :
    c.rampBoundaryLevel =
      if c.rampControl.getLsbD 4 then (c.rampEnd.toNat : Int) - (c.rampStart.toNat - c.rampNext)
      else (c.rampStart.toNat : Int) + (c.rampNext - c.rampEnd.toNat) := by
  unfold rampBoundaryLevel rampOver ctlLoop ctlBidir ctlDec
  rw [if_pos hloop, if_neg hbidir]
  split <;> rfl

/-- R177: the level of a stop. -/
theorem rampBoundaryLevel_of_stop (hloop : ¬c.rampControl.getLsbD 1 = true) :
    c.rampBoundaryLevel = if c.rampControl.getLsbD 4 then (c.rampStart.toNat : Int) else c.rampEnd.toNat :=
  if_neg hloop

theorem rampBoundaryControl_of_bounce (hloop : c.rampControl.getLsbD 1 = true)
    (hbidir : c.rampControl.getLsbD 2 = true) : c.rampBoundaryControl = c.rampControl ^^^ 0x10#8 :=
  (if_pos hloop).trans (if_pos hbidir)

theorem rampBoundaryControl_of_loop (hloop : c.rampControl.getLsbD 1 = true)
    (hbidir : ¬c.rampControl.getLsbD 2 = true) : c.rampBoundaryControl = c.rampControl :=
  (if_pos hloop).trans (if_neg hbidir)

theorem rampBoundaryControl_of_stop (hloop : ¬c.rampControl.getLsbD 1 = true) :
    c.rampBoundaryControl = c.rampControl ||| 0x01#8 := if_neg hloop

end Channel

/-- Settles O20: the boundary test is the model's, and each outcome is one lemma about the boundary. -/
theorem advanceRampFollowsItsRule : Obligations.AdvanceRampFollowsItsRule := by
  intro i s hc c t d rc dec lo hi v hit clamp stopped loop bidir
  have hhit : hit ↔ c.rampHit = true := Channel.rampHit_iff.symm
  have hd : d = c.advanceRamp s.cfg := advanceRamp_chan_self i s
  rw [hd]
  refine ⟨Channel.advanceRamp_of_stopped, Channel.advanceRamp_frame, fun hrun hmiss => ?miss,
    fun hrun h hloop hbidir => ?bounce, fun hrun h hloop hbidir => ?loop, fun hrun h hloop => ?stop, fun k => ?cause,
    rfl, State.setChan_onG_frame (advanceRamp_eq i s)⟩
  case miss =>
    rw [Channel.advanceRamp_of_not_hit hrun (mt hhit.mpr hmiss)]
    exact ⟨clampRamp_toInt hc c.rampNext, rfl⟩
  case bounce =>
    exact Channel.advanceRamp_boundary hc hrun (hhit.mp h) (Channel.rampBoundaryLevel_of_bounce hloop hbidir)
      (Channel.rampBoundaryControl_of_bounce hloop hbidir)
  case loop =>
    exact Channel.advanceRamp_boundary hc hrun (hhit.mp h) (Channel.rampBoundaryLevel_of_loop hloop hbidir)
      (Channel.rampBoundaryControl_of_loop hloop hbidir)
  case stop =>
    exact Channel.advanceRamp_boundary hc hrun (hhit.mp h) (Channel.rampBoundaryLevel_of_stop hloop)
      (Channel.rampBoundaryControl_of_stop hloop)
  case cause =>
    rw [hhit, ← Channel.rampRaises_iff]
    exact raiseCause_getLsbD_iff

/-! #### The audio tick (R200, R201) -/

/-- The addends of the voices of `l` on one side, whose factor is `atten` (R197). -/
def addendSum (atten : Channel → BitVec 18) (l : List ChanIdx) (s : State) : Int :=
  (l.map fun i => scaleSample (fetchSample i s) (atten (s.chan i))).sum

/-- What ticking the voices of `l`, each once, makes of a tick on its way (R200): each voice is mixed as it stood
before all of them, and only the channels of `l` and the cause flags are written. -/
structure VoicesTicked (l : List ChanIdx) (m m' : Mixing) : Prop where
  chan : ∀ j, m'.s.chan j = if j ∈ l then (m.s.chan j).ticked m.s.cfg else m.s.chan j
  accL : m'.accL = m.accL + addendSum Channel.attenL l m.s
  accR : m'.accR = m.accR + addendSum Channel.attenR l m.s
  waveIrq : ∀ j : ChanIdx, m'.s.g.waveIrq.getLsbD j.val =
    (m.s.g.waveIrq.getLsbD j.val || (decide (j ∈ l) && (m.s.chan j).waveRaises))
  rampIrq : ∀ j : ChanIdx, m'.s.g.rampIrq.getLsbD j.val =
    (m.s.g.rampIrq.getLsbD j.val || (decide (j ∈ l) && (m.s.chan j).rampRaises))
  g : m'.s.g = { m.s.g with waveIrq := m'.s.g.waveIrq, rampIrq := m'.s.g.rampIrq }

section

variable {l : List ChanIdx} {m : Mixing} {i j : ChanIdx}

/-- A voice ticked leaves every other channel as it was. -/
theorem tickVoice_chan_ne (h : j ≠ i) : (tickVoice m i).s.chan j = m.s.chan j := by
  rw [tickVoice_chan, if_neg h]

/-- A voice ticked before others is not among them, so that their addends are what they were. -/
theorem addendSum_cons (atten : Channel → BitVec 18) (hi : i ∉ l) :
    addendSum atten (i :: l) m.s =
      scaleSample (fetchSample i m.s) (atten (m.s.chan i)) + addendSum atten l (tickVoice m i).s := by
  have hsame : ∀ j ∈ l, scaleSample (fetchSample j (tickVoice m i).s) (atten ((tickVoice m i).s.chan j)) =
      scaleSample (fetchSample j m.s) (atten (m.s.chan j)) := fun j hj => by
    have hne : j ≠ i := fun he => hi (he ▸ hj)
    rw [fetchSample_tickVoice hne, tickVoice_chan_ne hne]
  rw [addendSum, addendSum, List.map_cons, List.sum_cons, List.map_congr_left hsame]

/-- A voice ticked before others is not among them, so that their causes add to its own. -/
theorem cause_cons (raises : Channel → Bool) (mask : BitVec 32) (hi : i ∉ l) :
    ((raiseCause (raises (m.s.chan i)) i mask).getLsbD j.val ||
        (decide (j ∈ l) && raises ((tickVoice m i).s.chan j))) =
      (mask.getLsbD j.val || (decide (j ∈ i :: l) && raises (m.s.chan j))) := by
  rw [raiseCause_getLsbD]
  by_cases hj : j = i
  · subst hj
    simp [hi]
  · simp [hj, tickVoice_chan_ne hj]

theorem VoicesTicked.nil (m : Mixing) : VoicesTicked [] m m :=
  ⟨by simp, by simp [addendSum], by simp [addendSum], by simp, by simp, rfl⟩

/-- One voice ticked, then others. -/
theorem VoicesTicked.cons {m' : Mixing} (hi : i ∉ l) (h : VoicesTicked l (tickVoice m i) m') :
    VoicesTicked (i :: l) m m' := by
  refine ⟨fun j => ?chan, ?accL, ?accR, fun j => ?waveIrq, fun j => ?rampIrq, ?g⟩
  case chan =>
    rw [h.chan]
    by_cases hj : j = i
    · subst hj
      simp [hi, tickVoice_chan]
    · simp [hj, tickVoice_chan_ne hj]
  case accL => rw [h.accL, tickVoice_accL, addendSum_cons _ hi, add_assoc]
  case accR => rw [h.accR, tickVoice_accR, addendSum_cons _ hi, add_assoc]
  case waveIrq => rw [h.waveIrq, tickVoice_g, cause_cons _ _ hi]
  case rampIrq => rw [h.rampIrq, tickVoice_g, cause_cons _ _ hi]
  case g =>
    have hg := h.g
    rwa [tickVoice_g] at hg

end

/-- R200: the loop over the voices, by induction on those still to come. -/
theorem voicesTicked_foldl {l : List ChanIdx} (hl : l.Nodup) (m : Mixing) :
    VoicesTicked l m (l.foldl tickVoice m) := by
  induction l generalizing m with
  | nil => exact .nil m
  | cons i l ih =>
    obtain ⟨hi, hl⟩ := List.nodup_cons.mp hl
    exact .cons hi (ih hl (tickVoice m i))

theorem mem_activeChannels {n : BitVec 6} {i : ChanIdx} : i ∈ activeChannels n ↔ i.val < n.toNat := by
  simp [activeChannels]

theorem nodup_activeChannels (n : BitVec 6) : (activeChannels n).Nodup := (List.nodup_finRange 32).filter _

/-- R201: the addends of the active voices, as a sum over all channels. -/
theorem addendSum_activeChannels (atten : Channel → BitVec 18) (n : BitVec 6) (s : State) :
    addendSum atten (activeChannels n) s =
      ((List.finRange 32).map fun i =>
        if i.val < n.toNat then scaleSample (fetchSample i s) (atten (s.chan i)) else 0).sum := by
  rw [List.sum_map_ite]
  simp [addendSum, activeChannels]

/-- R200, R201: every voice below the count is ticked once. -/
theorem voicesTicked_mixAll (inL inR : BitVec 24) (s : State) :
    VoicesTicked (activeChannels s.g.activeVoiceCount) ⟨s, inL.toInt, inR.toInt⟩ (mixAll inL inR s) :=
  voicesTicked_foldl (nodup_activeChannels _) _

/-- Settles O24: the loop over the active voices, then the clamp, the interrupt line and the frame of the tick. -/
theorem tickServesEveryActiveVoiceOnce : Obligations.TickServesEveryActiveVoiceOnce := by
  intro inL inR s n left right
  have h := voicesTicked_mixAll inL inR s
  have hleft : (audioTick inL inR s).1.1 = left := by
    change clamp16 (mixAll inL inR s).accL = left
    rw [h.accL, addendSum_activeChannels]
  have hright : (audioTick inL inR s).1.2 = right := by
    change clamp16 (mixAll inL inR s).accR = right
    rw [h.accR, addendSum_activeChannels]
  have hg : (audioTick inL inR s).2.g = irqUpdated (mixAll inL inR s).s.g := rfl
  have hchan (i : ChanIdx) : (audioTick inL inR s).2.chan i = (mixAll inL inR s).s.chan i := rfl
  obtain ⟨chans, g, hrest⟩ := audioTick_rest inL inR s
  rw [hleft, hright] at hrest
  refine ⟨_, rfl, ?result, ?emitted, fun i hi => ?active, fun i hi => ?inactive, fun i => ?waveIrq, fun i => ?rampIrq,
    ?g, ?frame⟩
  case result => rw [hleft, hright, State.ret_result]
  case emitted => rw [State.ret_emitted, hrest]
  case active => rw [State.ret_chan, hchan, h.chan, if_pos (mem_activeChannels.mpr hi)]; rfl
  case inactive => rw [State.ret_chan, hchan, h.chan, if_neg (mt mem_activeChannels.mp (by omega))]
  case waveIrq =>
    rw [State.ret_g, hg, ← decide_eq_decide.mpr mem_activeChannels]
    exact h.waveIrq i
  case rampIrq =>
    rw [State.ret_g, hg, ← decide_eq_decide.mpr mem_activeChannels]
    exact h.rampIrq i
  case g => exact congrArg irqUpdated h.g
  case frame =>
    rw [hrest]
    exact ⟨⟨rfl, rfl, rfl⟩, ⟨rfl, rfl⟩, rfl, ⟨rfl, rfl, rfl, fun _ => rfl⟩, rfl, fun _ => rfl⟩

end Sys2Proof.Machine

/-! ### The family of `44_fetch_mix.md`: the interpolation's bounds, the fetch from memory, a tick of silent voices -/

namespace Sys2Proof.Machine

/-! #### Interpolation (R193) -/

section

variable {s0 s1 : Int} {f : Nat}

/-- R193: on a rising slope the weighted difference is rounded down, so that it stays below the whole difference. -/
theorem interp_bounds_of_lt (h : s0 < s1) (hf : f ≤ 1023) : s0 ≤ interp s0 s1 f ∧ interp s0 s1 f < s1 := by
  have hrise : 0 < s1 - s0 := sub_pos.mpr h
  have hnonneg : 0 ≤ (s1 - s0) * f := Int.mul_nonneg hrise.le (Int.natCast_nonneg f)
  have hlt : (s1 - s0) * f < (s1 - s0) * 1024 := Int.mul_lt_mul_of_pos_left (by omega) hrise
  unfold interp
  omega

/-- R193: on a falling slope the weighted difference is no less than the whole one, below which rounding down cannot
go (log 24). -/
theorem interp_bounds_of_ge (h : s1 ≤ s0) (hf : f ≤ 1023) : s1 ≤ interp s0 s1 f ∧ interp s0 s1 f ≤ s0 := by
  have hfall : s1 - s0 ≤ 0 := sub_nonpos.mpr h
  have hnonpos : (s1 - s0) * f ≤ 0 := Int.mul_nonpos_of_nonpos_of_nonneg hfall (Int.natCast_nonneg f)
  have hge : (s1 - s0) * 1024 ≤ (s1 - s0) * f := Int.mul_le_mul_of_nonpos_left hfall (by omega)
  unfold interp
  omega

end

/-- Settles O22: the two slopes, a flat one taken with the falling. -/
theorem interpolationLiesBetweenItsSamples : Obligations.InterpolationLiesBetweenItsSamples := by
  intro s0 s1 f hf
  refine ⟨interp_zero s0 s1, ?_⟩
  rcases lt_or_ge s0 s1 with hrise | hfall
  · obtain ⟨hlo, hhi⟩ := interp_bounds_of_lt hrise hf
    exact ⟨min_le_of_left_le hlo, le_max_of_le_right hhi.le, fun _ => hhi⟩
  · obtain ⟨hlo, hhi⟩ := interp_bounds_of_ge hfall hf
    exact ⟨min_le_of_right_le hlo, le_max_of_le_left hhi, fun h => absurd h hfall.not_gt⟩

/-! #### Samples from the bytes of device memory as numbers (R61, R65, R191, R192) -/

theorem signedValue_toNat {w : Nat} (x : BitVec w) : signedValue w x.toNat = x.toInt := by
  rw [signedValue, BitVec.toInt_eq_toNat_cond]
  norm_cast

/-- R65: a one-byte read as a number. -/
theorem State.toNat_memRead (s : State) (a : Addr) : (s.memRead a).toNat = byteNat s a.toNat := by
  rw [State.memRead, maskAddr, byteNat, Nat.mod_eq_of_lt a.isLt]

/-- R65: the byte after an address, which wraps at the width of an address as `byteNat` does. -/
theorem State.toNat_memRead_succ (s : State) (a : Addr) : (s.memRead (a + 1)).toNat = byteNat s (a.toNat + 1) := by
  rw [State.memRead, byteNat, ← maskAddr_add_ofNat]
  rfl

/-- R191: an 8-bit sample from its byte as a number. -/
theorem sample8_eq (b : Byte) : sample8 b = 256 * signedValue 8 b.toNat := by
  rw [sample8, signedValue_toNat, Int.mul_comm]

/-- R61: a 16-bit sample from its two bytes as numbers. -/
theorem sample16_eq (hi lo : Byte) : sample16 hi lo = signedValue 16 (lo.toNat + 256 * hi.toNat) := by
  have hword : (hi ++ lo).toNat = lo.toNat + 256 * hi.toNat := by
    rw [BitVec.toNat_append, ← Nat.shiftLeft_add_eq_or_of_lt lo.isLt, Nat.shiftLeft_eq]
    omega
  rw [sample16, ← signedValue_toNat, hword]

/-- R192: a 16-bit sample from the two bytes of device memory, low byte first. -/
theorem wordAt_eq (s : State) (a : Addr) :
    wordAt s a = signedValue 16 (byteNat s a.toNat + 256 * byteNat s (a.toNat + 1)) := by
  rw [wordAt, sample16_eq, s.toNat_memRead, s.toNat_memRead_succ]

/-- R191: an 8-bit voice blends the samples at its integer address and at the next. -/
theorem fetchSample_of_bit8 {i : ChanIdx} {s : State} (h : (s.chan i).waveControl.getLsbD 3 = false) :
    fetchSample i s =
      interp (sample8 (s.memRead (waveInt (s.chan i).waveAddr)))
        (sample8 (s.memRead (waveInt (s.chan i).waveAddr + 1))) (waveFrac (s.chan i).waveAddr) := by
  have hmode : ctlBit16 (s.chan i).waveControl = false := h
  simp [fetchSample, sampleAt, hmode, samplePair8]

/-- R192: a 16-bit voice blends the words at the remapped sample indices. -/
theorem fetchSample_of_bit16 {i : ChanIdx} {s : State} (h : (s.chan i).waveControl.getLsbD 3 = true) :
    fetchSample i s =
      interp (wordAt s (remap16 s.cfg (waveInt (s.chan i).waveAddr)))
        (wordAt s (remap16 s.cfg (waveInt (s.chan i).waveAddr + 1))) (waveFrac (s.chan i).waveAddr) := by
  have hmode : ctlBit16 (s.chan i).waveControl = true := h
  simp [fetchSample, sampleAt, hmode, samplePair16]

/-- Settles O23: each mode's pair of samples as numbers, blended by the fraction. -/
theorem fetchBlendsTheTwoSurroundingSamples : Obligations.FetchBlendsTheTwoSurroundingSamples := by
  intro i s hc c a f s8 s16
  have ha : (waveInt c.waveAddr).toNat = a := toNat_waveInt c.waveAddr
  have hnext : (waveInt c.waveAddr + 1).toNat = (a + 1) % 2 ^ 24 := by
    rw [BitVec.toNat_add, ha]
    rfl
  refine ⟨fun h8 => ?_, fun h16 => ?_⟩
  · rw [fetchSample_of_bit8 h8, sample8_eq, sample8_eq, s.toNat_memRead, s.toNat_memRead_succ, ha, waveFrac_eq]
    rfl
  · intro k0 k1
    rw [fetchSample_of_bit16 h16, wordAt_eq, wordAt_eq, toNat_remap16 hc, toNat_remap16 hc, ha, hnext, waveFrac_eq]
    rfl

/-! #### A tick of silent voices (R197, R203) -/

/-- R197: voices whose factor is 0 add nothing, whatever they fetch. -/
theorem addendSum_eq_zero {atten : Channel → BitVec 18} {l : List ChanIdx} {s : State}
    (h : ∀ i ∈ l, atten (s.chan i) = 0) : addendSum atten l s = 0 :=
  List.sum_eq_zero fun x hx => by
    obtain ⟨i, hi, rfl⟩ := List.mem_map.mp hx
    rw [h i hi, scaleSample_zero]

/-- Settles O26: the tick hands back the clamped sums (O24), and the silent voices' addends are 0. -/
theorem aTickOfSilentVoicesPassesTheInputsThrough : Obligations.ATickOfSilentVoicesPassesTheInputsThrough := by
  intro inL inR s hsilent
  have hleft : addendSum Channel.attenL (activeChannels s.g.activeVoiceCount) s = 0 :=
    addendSum_eq_zero fun i hi => (hsilent i (mem_activeChannels.mp hi)).1
  have hright : addendSum Channel.attenR (activeChannels s.g.activeVoiceCount) s = 0 :=
    addendSum_eq_zero fun i hi => (hsilent i (mem_activeChannels.mp hi)).2
  obtain ⟨t, hexec, hresult, -⟩ := tickServesEveryActiveVoiceOnce inL inR s
  refine ⟨t, hexec, ?_⟩
  rw [hresult, ← addendSum_activeChannels Channel.attenL, ← addendSum_activeChannels Channel.attenR, hleft, hright,
    add_zero, add_zero, clamp16, clamp16]

end Sys2Proof.Machine

/-! ### The family of `45_global.md`: the effective status and the blame pointer, the voice count, the mode word and the
device reset, the acknowledges, the fire of a timer -/

namespace Sys2Proof.Machine

/-! #### The effective status (R216) and the line (R217) -/

/-- A word is not 0 iff one of its bits is set. -/
theorem ne_zero_iff_exists_getLsbD {w : Nat} (x : BitVec w) : x ≠ 0 ↔ ∃ k : Fin w, x.getLsbD k.val = true := by
  constructor
  · intro hx
    by_contra! hclear
    exact hx (BitVec.eq_of_getLsbD_eq fun i hi => by simpa using hclear ⟨i, hi⟩)
  · rintro ⟨k, hk⟩ rfl
    simp at hk

/-- R216: an active channel has a cause iff the cause mask is not 0 below the voice count. -/
theorem and_activeMask_bne_zero_iff (m : BitVec 32) (n : BitVec 6) :
    (m &&& activeMask n != 0) = true ↔ ∃ i : ChanIdx, i.val < n.toNat ∧ m.getLsbD i.val = true := by
  rw [bne_iff_ne, ne_zero_iff_exists_getLsbD]
  refine exists_congr fun i => ?_
  rw [BitVec.getLsbD_and, activeMask_getLsbD n i.isLt, Bool.and_eq_true, decide_eq_true_iff, and_comm]

theorem statusWave_iff (g : Globals) : statusWave g = true ↔
    g.mode.getLsbD 2 = true ∧ ∃ i : ChanIdx, i.val < g.activeVoiceCount.toNat ∧ g.waveIrq.getLsbD i.val = true := by
  rw [statusWave, Bool.and_eq_true, and_activeMask_bne_zero_iff, modeIrqMaster]

theorem statusRamp_iff (g : Globals) : statusRamp g = true ↔
    g.mode.getLsbD 2 = true ∧ ∃ i : ChanIdx, i.val < g.activeVoiceCount.toNat ∧ g.rampIrq.getLsbD i.val = true := by
  rw [statusRamp, Bool.and_eq_true, and_activeMask_bne_zero_iff, modeIrqMaster]

/-- R216: bits 1 to 4 of the effective status are the timers' causes and the gated wave and ramp causes. -/
theorem effectiveIrqStatus_getLsbD_one_to_four (g : Globals) :
    (effectiveIrqStatus g).getLsbD 1 = statusTimer0 g ∧ (effectiveIrqStatus g).getLsbD 2 = statusTimer1 g ∧
      (effectiveIrqStatus g).getLsbD 3 = statusWave g ∧ (effectiveIrqStatus g).getLsbD 4 = statusRamp g := by
  rw [effectiveIrqStatus]
  simp only [BitVec.getLsbD_append, BitVec.getLsbD_ofBool]
  simp

/-- Settles O35: each bit is its cause with its gate, and the line is asserted where the status is not 0. -/
theorem effectiveStatusGatesTheRawCauses : Obligations.EffectiveStatusGatesTheRawCauses := by
  intro g
  obtain ⟨htimer0, htimer1, hwave, hramp⟩ := effectiveIrqStatus_getLsbD_one_to_four g
  refine ⟨?dma, by rw [htimer0, statusTimer0], by rw [htimer1, statusTimer1], ?wave, ?ramp, ?line, rfl⟩
  case dma => rw [effectiveIrqStatus_getLsbD_zero, statusDma, Bool.and_eq_true, dmaTc, dmaIrqEn]
  case wave => rw [hwave, statusWave_iff]
  case ramp => rw [hramp, statusRamp_iff]
  case line => rw [irqUpdated, bne_iff_ne, ne_zero_iff_exists_getLsbD]

/-! #### The blame pointer (R219) -/

/-- R219: a channel is pending in the terms of the rule iff its bit of the pending mask is set. -/
theorem voicePending_getLsbD_iff (g : Globals) (k : BitVec 5) : (voicePending g).getLsbD k.toNat = true ↔
    k.toNat < g.activeVoiceCount.toNat ∧ (g.waveIrq.getLsbD k.toNat = true ∨ g.rampIrq.getLsbD k.toNat = true) := by
  rw [voicePending_getLsbD g k.isLt, Bool.and_eq_true, Bool.or_eq_true, decide_eq_true_iff, and_comm]

theorem blamedChannel_of_none {g : Globals} (h : voicePending g = 0) : blamedChannel g = g.irqChan := if_pos h

/-- R219: no channel nearer to the pointer, upward with wrap, is pending than the one it moves to. -/
theorem blamedChannel_first {g : Globals} (h : voicePending g ≠ 0) {k : BitVec 5}
    (hk : (k - g.irqChan).toNat < (blamedChannel g - g.irqChan).toNat) :
    (voicePending g).getLsbD k.toNat = false := by
  have hback : ∀ c : BitVec 5, g.irqChan + BitVec.ofNat 5 (c - g.irqChan).toNat = c := fun c => by
    rw [BitVec.ofNat_toNat, BitVec.setWidth_eq, BitVec.add_comm, BitVec.sub_add_cancel]
  obtain ⟨-, i, -, hstop, hbefore⟩ := blameFrom_spec (voicePending g) 32 g.irqChan
    (blamedChannel g - g.irqChan).toNat (BitVec.isLt _) (by rw [hback]; exact blamedChannel_pending h)
  have hk' := hbefore (k - g.irqChan).toNat ?nearer
  case nearer =>
    have hmoved : blamedChannel g - g.irqChan = BitVec.ofNat 5 i := by
      rw [blamedChannel, if_neg h, hstop, BitVec.add_comm, BitVec.add_sub_cancel]
    rw [hmoved, BitVec.toNat_ofNat] at hk
    exact hk.trans_le (Nat.mod_le i _)
  rwa [hback] at hk'

/-- Settles O36, by whether a voice cause is pending. -/
theorem blamePointerMovesToTheNextPendingChannel : Obligations.BlamePointerMovesToTheNextPendingChannel := by
  intro g pending p
  have hbit : ∀ k, pending k ↔ (voicePending g).getLsbD k.toNat = true := fun k => (voicePending_getLsbD_iff g k).symm
  simp only [hbit]
  refine ⟨fun hnone => ?none, fun ⟨k, hk⟩ => ?some⟩
  case none =>
    exact blamedChannel_of_none ((eq_zero_iff_getLsbD _).mpr fun k => Bool.eq_false_iff.mpr (hnone k))
  case some =>
    have hne : voicePending g ≠ 0 := fun h0 => by simp [h0] at hk
    exact ⟨blamedChannel_pending hne, fun j hj => Bool.eq_false_iff.mp (blamedChannel_first hne hj)⟩

/-! #### The voice count (R213) -/

theorem setVoiceCount_chan (n : Nat) (s : State) (i : ChanIdx) :
    (setVoiceCount n s).chan i = (s.chan i).rescale s.cfg (clampVoices n) := get_mapChannels _ _ _

theorem exec_setVoices (n : BitVec 6) (s : State) :
    exec (.setVoices n) s = .next (updateIrq (setVoiceCount n.toNat s)).done := rfl

/-- Settles O31: the clamped count is stored with its rate, and every channel is rescaled for it. -/
theorem setVoicesClampsAndRescalesEveryChannel : Obligations.SetVoicesClampsAndRescalesEveryChannel := by
  intro n s m
  exact ⟨_, exec_setVoices n s, ⟨rfl, rfl⟩, rfl, toNat_clampVoices n.toNat, setVoiceCount_chan n.toNat s,
    ⟨rfl, rfl, rfl⟩, ⟨rfl, rfl⟩, rfl, ⟨rfl, rfl, rfl, fun _ => rfl⟩, rfl, fun _ => rfl⟩

/-! #### The mode word (R210) and the device reset (R211) -/

/-- R210: bit 0 of the word is the `RUN` bit of the mode byte. -/
theorem modeRun_extractLsb (w : BitVec 16) : modeRun (w.extractLsb' 0 8) = w.getLsbD 0 := by
  simp [modeRun]

theorem resetMode_of_run {m : BitVec 8} (h : modeRun m = true) (old : BitVec 8) :
    resetMode old m = if old.getLsbD 0 then m else m &&& 0xF9#8 := by
  rw [resetMode, h, Bool.true_and, modeRun, modeClear21]

theorem resetMode_of_halt {m : BitVec 8} (h : modeRun m = false) (old : BitVec 8) :
    resetMode old m = m &&& 0xF9#8 := by
  rw [resetMode, h, Bool.false_and, if_neg Bool.false_ne_true, modeClear21]

theorem exec_reset_run {w : BitVec 16} (h : w.getLsbD 0 = true) (s : State) :
    exec (.reset w) s =
      .next (updateIrq (s.onG fun g => { g with mode := resetMode s.g.mode (w.extractLsb' 0 8) })).done :=
  next_updateIrq_congr (congrArg (State.onG _) (if_pos ((modeRun_extractLsb w).trans h)))

theorem exec_reset_halt {w : BitVec 16} (h : w.getLsbD 0 = false) (s : State) :
    exec (.reset w) s =
      .next (updateIrq ((deviceReset s).onG fun g =>
        { g with mode := resetMode s.g.mode (w.extractLsb' 0 8) })).done :=
  next_updateIrq_congr (congrArg (State.onG _) (if_neg (Bool.eq_false_iff.mp ((modeRun_extractLsb w).trans h))))

/-- Settles O32: the word rewrites the mode byte alone. -/
theorem runningWordStoresTheModeWithoutReset : Obligations.RunningWordStoresTheModeWithoutReset := by
  intro w s h
  refine ⟨_, exec_reset_run h s, ⟨rfl, rfl⟩, sameButG_of_write .., ?_⟩
  rw [resetMode_of_run ((modeRun_extractLsb w).trans h)]
  rfl

/-- R211: each channel is reset, then rescaled for the default voice count. -/
theorem deviceReset_chan (s : State) (i : ChanIdx) : (deviceReset s).chan i =
    ((s.chan i).deviceReset s.cfg).rescale s.cfg (clampVoices s.cfg.voicesDefault) := by
  rw [deviceReset, setVoiceCount_chan]
  simp [State.chan, get_mapChannels]

/-- R211: what the reset writes in the register file. -/
theorem deviceReset_g (s : State) : (deviceReset s).g =
    { s.g with
      activeVoiceCount := BitVec.ofNat 6 (clampVoices s.cfg.voicesDefault)
      baseRate := rateOf s.cfg (clampVoices s.cfg.voicesDefault)
      dmaControl := 0, waveIrq := 0, rampIrq := 0, timerIrq := 0, irqChan := 0 } := by
  simp [deviceReset, setVoiceCount]

theorem deviceReset_dma (s : State) : (deviceReset s).dma = { s.dma with running := false, xfer := .idle } := by
  simp [deviceReset, dmaCancel]

/-- The block's three events removed, one after another (R211). -/
def State.removeOwnEvents (s : State) : State :=
  schedRemove (evTimer 1) (schedRemove (evTimer 0) (schedRemove evDma s))

/-- R103: what a removal does to the table and the events depends on these two alone. -/
theorem schedRemove_congr {e : Nat} {s t : State} (h : t.alarms = s.alarms ∧ t.events = s.events) :
    (schedRemove e t).alarms = (schedRemove e s).alarms ∧ (schedRemove e t).events = (schedRemove e s).events := by
  obtain ⟨halarms, hevents⟩ := h
  have hpending : t.pending e = s.pending e := by rw [State.pending, State.event, hevents]; rfl
  unfold schedRemove
  rw [hpending]
  split
  · exact ⟨halarms, hevents⟩
  · simp [State.setPending, State.event, halarms, hevents]

/-- R211: to the table and the events the reset does nothing but remove the block's own events. -/
theorem deviceReset_sched (s : State) :
    (deviceReset s).alarms = s.removeOwnEvents.alarms ∧ (deviceReset s).events = s.removeOwnEvents.events :=
  schedRemove_congr (schedRemove_congr (schedRemove_congr ⟨rfl, rfl⟩))

/-- R211: the unexpired alarms pending for the block's three events leave the table. -/
theorem deviceReset_alarms (s : State) : (deviceReset s).alarms = s.alarms.filter (fun a =>
    !(decide (s.pending 0 = some a.id ∨ s.pending 1 = some a.id ∨ s.pending 2 = some a.id) && !a.expired)) := by
  rw [(deviceReset_sched s).1]
  simp only [State.removeOwnEvents, schedRemove_alarms, keptAlarms, schedRemove_pending, List.filter_filter]
  refine List.filter_congr fun a _ => ?_
  cases a.expired <;> simp [evTimer, Bool.and_comm, Bool.and_assoc]

/-- R211: the block's three events are inactive, every other event is as it was. -/
theorem deviceReset_event (s : State) (e : Nat) :
    (deviceReset s).event e = if e < 3 then { s.event e with pending := none } else s.event e := by
  have hevent : (deviceReset s).event e = s.removeOwnEvents.event e := by
    rw [State.event, (deviceReset_sched s).2, State.event]
  rw [hevent]
  simp only [State.removeOwnEvents, schedRemove_event]
  rcases Nat.lt_or_ge e 3 with he | he
  · interval_cases e <;> rfl
  · have hdma : e ≠ evDma := show e ≠ 0 by omega
    have htimer0 : e ≠ evTimer 0 := show e ≠ 1 by omega
    have htimer1 : e ≠ evTimer 1 := show e ≠ 2 by omega
    rw [if_neg htimer1, if_neg htimer0, if_neg hdma, if_neg (Nat.not_lt.mpr he)]

/-- R216, R217, R219: without a cause the pointer stays and the line is clear. -/
theorem irqUpdated_of_no_cause {g : Globals} (hdma : g.dmaControl = 0) (hwave : g.waveIrq = 0) (hramp : g.rampIrq = 0)
    (htimer : g.timerIrq = 0) : irqUpdated g = { g with irqLine := false } := by
  have hpending : voicePending g = 0 := by simp [voicePending, hwave, hramp]
  have hstatus : effectiveIrqStatus g = 0 := by
    simp [effectiveIrqStatus, statusDma, dmaTc, statusTimer0, statusTimer1, statusWave, statusRamp, hdma, hwave,
      hramp, htimer]
  rw [irqUpdated, blamedChannel_of_none hpending, hstatus]
  rfl

theorem clampVoices_voicesDefault {c : Config} (hc : c.WF) : clampVoices c.voicesDefault = c.voicesDefault := by
  obtain ⟨-, -, -, ⟨hge, hle⟩, -⟩ := hc
  rw [clampVoices]
  omega

/-- Settles O33: what the device reset writes, field by field, with the line then clear. -/
theorem haltingWordResetsTheDevice : Obligations.HaltingWordResetsTheDevice := by
  intro w s hc h n
  have hn := clampVoices_voicesDefault hc
  refine ⟨_, exec_reset_halt h s, ⟨?result, ?emitted⟩, fun i => ?chan, ?g, rfl, rfl, deviceReset_dma s,
    deviceReset_alarms s, fun e he => (deviceReset_event s e).trans (if_pos he),
    fun e he => (deviceReset_event s e).trans (if_neg (Nat.not_lt.mpr he)), ?rest⟩
  case result => rfl
  case emitted => simp
  case chan =>
    refine (deviceReset_chan s i).trans ?_
    rw [hn]
    rfl
  case g =>
    rw [State.done_g, updateIrq_g, State.onG_g, deviceReset_g, hn,
      resetMode_of_halt ((modeRun_extractLsb w).trans h), irqUpdated_of_no_cause rfl rfl rfl rfl]
  case rest => simp [SameOutside, SameMem]

/-! #### The acknowledge of the blamed channel (R221) -/

/-- R221: the fields of the value `ACK_VIRQ` hands back. -/
theorem setWidth_ackValue_toNat (g : Globals) : ((ackValue g).setWidth 48).toNat =
    g.irqChan.toNat + 32 * (blameActive g && g.waveIrq.getLsbD g.irqChan.toNat).toNat +
      64 * (blameActive g && g.rampIrq.getLsbD g.irqChan.toNat).toNat := by
  rw [BitVec.toNat_setWidth_of_le (by decide), ackValue, toNat_append_eq_add, toNat_append_eq_add, BitVec.toNat_ofBool,
    BitVec.toNat_ofBool]
  omega

theorem exec_ackVirq (s : State) :
    exec .ackVirq s = .next ((updateIrq (s.onG blameCleared)).ret ((ackValue s.g).setWidth 48)) := rfl

/-- Settles O37: the value is read before the two flags of the blamed channel are cleared. -/
theorem ackVirqClearsTheBlamedChannelsCauses : Obligations.AckVirqClearsTheBlamedChannelsCauses := by
  intro s k active
  obtain ⟨hwave, hramp, hframe⟩ := blameCleared_spec s.g
  exact ⟨_, _, exec_ackVirq s, ⟨rfl, rfl⟩, setWidth_ackValue_toNat s.g, hwave, hramp, congrArg irqUpdated hframe,
    sameButG_of_write ..⟩

/-! #### The timers' fire (R226) and acknowledge (R227) -/

/-- R226: the flag of one timer set, the other as it was. -/
theorem raiseTimerCause_getLsbD (k : BitVec 1) (m : BitVec 2) (j : Fin 2) :
    (raiseTimerCause k m).getLsbD j.val = (m.getLsbD j.val || decide (j.val = k.toNat)) := by
  revert k m j
  decide

/-- R227: the flags of the mask cleared, every other one as it was. -/
theorem clearTimerCauses_getLsbD (mask m : BitVec 2) (j : Nat) :
    (clearTimerCauses mask m).getLsbD j = (m.getLsbD j && !mask.getLsbD j) := by
  rw [clearTimerCauses, BitVec.getLsbD_and, BitVec.getLsbD_not]
  rcases Nat.lt_or_ge j 2 with hj | hj
  · rw [decide_eq_true hj, Bool.true_and]
  · rw [BitVec.getLsbD_of_ge m j hj, Bool.false_and, Bool.false_and]

/-- R226: a running timer that fires, with every field it writes. -/
theorem timerFire_eq_of_running {v : BitVec 32} {k : BitVec 1} (hk : v.extractLsb' 0 1 = k) {s : State}
    (hrun : (s.tmr k).running = true) :
    timerFire v s =
      (updateIrq ((s.setTmr k { s.tmr k with reached := (s.tmr k).reached || !(s.tmr k).masked }).onG fun g =>
        { g with timerIrq := if (s.tmr k).raiseIrq then raiseTimerCause k g.timerIrq else g.timerIrq }),
        (s.tmr k).delay) := by
  subst hk
  rw [timerFire]
  dsimp only
  rw [if_neg (by simp [hrun])]
  cases (s.tmr (v.extractLsb' 0 1)).raiseIrq <;> rfl

/-- Settles O39, by whether the timer runs. -/
theorem timerFireMarksTheTimerAndReturnsItsDelay : Obligations.TimerFireMarksTheTimerAndReturnsItsDelay := by
  intro v s k x t
  refine ⟨fun hstopped => ?stopped, fun hrun => ?running⟩
  case stopped =>
    rw [timerFire]
    exact if_pos (by rw [Bool.not_eq_true']; exact hstopped)
  case running =>
    have hfire := timerFire_eq_of_running rfl hrun
    have hg : t.g = irqUpdated
        { s.g with timerIrq := if x.raiseIrq then raiseTimerCause k s.g.timerIrq else s.g.timerIrq } := by
      dsimp only [t]
      rw [hfire, updateIrq_g, State.onG_g, State.setTmr_g]
    refine ⟨congrArg Prod.snd hfire, ?self, fun j hj => ?other, fun j => ?cause, ?g, ?rest⟩
    case self => dsimp only [t]; rw [hfire, updateIrq_tmr, State.onG_tmr, State.tmr_setTmr_self]
    case other => dsimp only [t]; rw [hfire, updateIrq_tmr, State.onG_tmr, State.tmr_setTmr_ne _ _ hj]
    case cause =>
      rw [hg]
      dsimp only [irqUpdated]
      split
      · next hraise => rw [raiseTimerCause_getLsbD, show x.raiseIrq = true from hraise, Bool.and_true]
      · next hquiet => rw [Bool.eq_false_iff.mpr hquiet, Bool.and_false, Bool.or_false]
    case g => rw [hg]; rfl
    case rest => simp [t, SameOutside, SameChans, SameSched, SameMem]

/-- R227: `TMR_ACK` with its operations written out. -/
theorem exec_tmrAck (mask : BitVec 2) (s : State) :
    exec (.tmrAck mask) s = .next (updateIrq
      { s with
        tmr0 := { s.tmr0 with reached := s.tmr0.reached && !mask.getLsbD 0 }
        tmr1 := { s.tmr1 with reached := s.tmr1.reached && !mask.getLsbD 1 }
        g := { s.g with timerIrq := clearTimerCauses mask s.g.timerIrq } }).done := rfl

/-- Settles O40: the command writes the two `reached` marks, the cause flags and the line. -/
theorem timerAckClearsTheMaskedTimers : Obligations.TimerAckClearsTheMaskedTimers := by
  intro mask s
  refine ⟨_, exec_tmrAck mask s, ⟨rfl, rfl⟩, fun k => ?tmr, clearTimerCauses_getLsbD mask s.g.timerIrq, rfl,
    ⟨rfl, rfl, rfl⟩, fun _ => rfl, rfl, ⟨rfl, rfl, rfl, fun _ => rfl⟩, rfl, fun _ => rfl⟩
  obtain rfl | rfl := bit1_cases k <;> rfl

end Sys2Proof.Machine

/-! ### The family of `60_exceptions.md`: no exception exists (R240) -/

namespace Sys2Proof.Machine

/-- Settles O8: the laws that a command and a step keep the configuration also say that each answers a next state. -/
theorem everyStepCompletes : Obligations.EveryStepCompletes :=
  ⟨fun i s => (exec_next_cfg i s).imp fun _ h => h.1, fun s => (step_next_cfg s).imp fun _ h => h.1⟩

end Sys2Proof.Machine

/-! ### The family of `70_reset_and_hazards.md`: boot (R260) and a reset after a reset (R264) -/

namespace Sys2Proof.Machine

/-! #### The device reset with its fields written out (R211) -/

/-- R211: what the device reset does to the register file. -/
def Globals.deviceReset (c : Config) (g : Globals) : Globals :=
  { g with
    activeVoiceCount := BitVec.ofNat 6 (clampVoices c.voicesDefault)
    baseRate := rateOf c (clampVoices c.voicesDefault)
    dmaControl := 0, waveIrq := 0, rampIrq := 0, timerIrq := 0, irqChan := 0 }

/-- R123: a cancelled engine. -/
def Dma.cancelled (d : Dma) : Dma := { d with running := false, xfer := .idle }

theorem State.removeOwnEvents_of_inactive {s : State} (h : ∀ e, e < 3 → s.pending e = none) :
    s.removeOwnEvents = s := by
  have hremove : ∀ e, e < 3 → schedRemove e s = s := fun e he => schedRemove_of_inactive (h e he)
  rw [State.removeOwnEvents, hremove evDma (by decide), hremove (evTimer 0) (evTimer_lt 0),
    hremove (evTimer 1) (evTimer_lt 1)]

/-- R211: where none of the block's events is pending the reset leaves the table and the events as they were. -/
theorem deviceReset_eq_of_inactive {s : State} (h : ∀ e, e < 3 → s.pending e = none) :
    deviceReset s = { s with
      chans := (deviceReset s).chans, g := s.g.deviceReset s.cfg, tmr0 := bootTimer, tmr1 := bootTimer
      dma := s.dma.cancelled } := by
  obtain ⟨halarms, hevents⟩ := deviceReset_sched s
  rw [State.removeOwnEvents_of_inactive h] at halarms hevents
  calc deviceReset s
      _ = { deviceReset s with tmr0 := bootTimer, tmr1 := bootTimer } := rfl
      _ = _ := by
        simp [deviceReset_g, deviceReset_dma, halarms, hevents, Globals.deviceReset, Dma.cancelled]

/-! #### Reset once, reset again (R264) -/

/-- R264: every field that a device reset writes has the value it writes, and none of the block's events is pending. -/
structure State.AtRest (s : State) : Prop where
  chan : ∀ i, ((s.chan i).deviceReset s.cfg).rescale s.cfg (clampVoices s.cfg.voicesDefault) = s.chan i
  g : s.g.deviceReset s.cfg = s.g
  tmr0 : s.tmr0 = bootTimer
  tmr1 : s.tmr1 = bootTimer
  dma : s.dma.cancelled = s.dma
  pending : ∀ e, e < 3 → s.pending e = none

theorem deviceReset_atRest (s : State) : (deviceReset s).AtRest where
  chan i := by rw [deviceReset_chan, deviceReset_cfg]; rfl
  g := by rw [deviceReset_g, deviceReset_cfg]; rfl
  tmr0 := rfl
  tmr1 := rfl
  dma := by rw [deviceReset_dma]; rfl
  pending e he := by rw [State.pending, deviceReset_event, if_pos he]

/-- R264: a device reset changes nothing in a state that is at rest. -/
theorem State.AtRest.deviceReset_eq {s : State} (h : s.AtRest) : deviceReset s = s := by
  have hchans : (deviceReset s).chans = s.chans := chans_ext fun i => (deviceReset_chan s i).trans (h.chan i)
  rw [deviceReset_eq_of_inactive h.pending, hchans, h.g, h.dma]
  exact congrArg₂ (fun x y => { s with tmr0 := x, tmr1 := y }) h.tmr0.symm h.tmr1.symm

/-- R210: the mode byte stored, the line clear, nothing handed back: what `RESET` writes besides the device reset. -/
def State.haltedWith (m : BitVec 8) (s : State) : State :=
  { s with g := { s.g with mode := m, irqLine := false }, result := none }

/-- R210: a word with bit 0 clear is a device reset and the stored mode byte, which does not depend on the old one. -/
theorem exec_reset_haltedWith {w : BitVec 16} (h : w.getLsbD 0 = false) (s : State) :
    exec (.reset w) s = .next ((deviceReset s).haltedWith (w.extractLsb' 0 8 &&& 0xF9#8)) := by
  have hirq : irqUpdated { (deviceReset s).g with mode := w.extractLsb' 0 8 &&& 0xF9#8 } =
      { (deviceReset s).g with mode := w.extractLsb' 0 8 &&& 0xF9#8, irqLine := false } := by
    rw [deviceReset_g]
    exact irqUpdated_of_no_cause rfl rfl rfl rfl
  rw [exec_reset_halt h, resetMode_of_halt ((modeRun_extractLsb w).trans h), State.haltedWith, ← hirq]
  rfl

/-- R211: the mode byte, the line and the result are no concern of the device reset. -/
theorem State.AtRest.haltedWith {s : State} (h : s.AtRest) (m : BitVec 8) : (s.haltedWith m).AtRest where
  chan := h.chan
  g := congrArg (fun g : Globals => { g with mode := m, irqLine := false }) h.g
  tmr0 := h.tmr0
  tmr1 := h.tmr1
  dma := h.dma
  pending := h.pending

/-- Settles O34: the first reset leaves the state at rest, where the second device reset changes nothing and the same
mode byte is stored again. -/
theorem resettingTwiceIsResettingOnce : Obligations.ResettingTwiceIsResettingOnce := by
  intro w s t hw hfirst
  rw [exec_reset_haltedWith hw] at hfirst
  obtain rfl := Host.Outcome.next.inj hfirst
  have hrest := (deviceReset_atRest s).haltedWith (w.extractLsb' 0 8 &&& 0xF9#8)
  rw [exec_reset_haltedWith hw, hrest.deviceReset_eq]
  rfl

/-! #### Boot (R260) -/

/-- R260: no event is pending in the zero state. -/
theorem zeroState_pending (c : Config) (e : Nat) : (zeroState c).pending e = none :=
  congrArg EventSlot.pending (State.boot_event c e)

/-- R260, R261: the device reset makes each zero channel the boot channel. -/
theorem deviceReset_zeroState_chan (c : Config) (i : ChanIdx) : (deviceReset (zeroState c)).chan i = bootChannel c := by
  rw [deviceReset_chan]
  simp [State.chan, zeroState, Vector.get_eq_getElem, Channel.deviceReset, Channel.updateAtten, Channel.rescale,
    bootChannel]

/-- Settles O57: the reset of the zero state finds no event pending, so that it writes channels, registers, timers and
engine alone, and each becomes its boot value. -/
theorem bootIsAllZeroThenADeviceReset : Obligations.BootIsAllZeroThenADeviceReset := by
  intro c
  have hchans : (deviceReset (zeroState c)).chans = (State.boot c).chans :=
    chans_ext fun i => (deviceReset_zeroState_chan c i).trans (State.boot_chan c i).symm
  rw [deviceReset_eq_of_inactive fun e _ => zeroState_pending c e, hchans]
  rfl

end Sys2Proof.Machine
